-- ==== Sys2Proof/Word.lean ====
section
/-!
DEFINITION. The words of RIOT-CRC8CONV: u8, u16 and 32-bit register values, bytes as bus lanes.
Spec: 00_scope.md R8 (bit numbering, u8/u16/u32), 20_memory.md R61 (byte lanes).
-/

namespace Sys2Proof

/-- A u8 (R8): a CRC value, a data byte, one byte lane of a bus word. -/
abbrev Byte := BitVec 8

/-- A u16 (R8): a raw ADC count. -/
abbrev Half := BitVec 16

/-- A 32-bit register value or command word (R7, R23). -/
abbrev Word := BitVec 32

end Sys2Proof
end

