-- ==== Sys2Proof/Config.lean ====
section
/-!
DEFINITION. What a platform fixes (`BASE`, 00_scope.md R7, 20_memory.md R60) and the names of the
window's registers (10_state.md R23).
-/

namespace Sys2Proof

/-- The platform's choice of `BASE`, counted in 64-byte blocks. It has no body: `BASE` is OPEN (R7, R60, P1),
so whatever is proved holds for every placement of the window. Log entry 1. -/
opaque Config.baseBlock : Nat

/-- `BASE`, the bus address of the window's first byte. It is 64-byte aligned by construction (R60). -/
def Config.base : Nat := 64 * Config.baseBlock

/-- The window is 64 bytes long (R7, R69). -/
def Config.windowBytes : Nat := 64

/-- The eleven registers of the window, under the names R23 gives them. `wr` and `rd` (R93) name them. -/
inductive Reg where
  | cmd | ctrl | poly | init | crc | status | rawt | rawh | rest | resh | lastcrc
  deriving DecidableEq, Repr

end Sys2Proof
end

