-- ==== Sys2Proof/Syntax.lean ====
section
/-!
DEFINITION. The commands of RIOT-CRC8CONV, one constructor per row of the opcode map (30_encoding.md R88).
Operands are the unsigned bit fields R87 names: `b`, `d0`, `d1`, `c` are u8, `raw` is u16.
-/

namespace Sys2Proof

/-- A command (R80). Every operand value its fields can hold is legal (R84-R87), so the field types carry the
well-formedness of a command; `WellFormed.lean` checks the plain numbers an assembler is given. -/
inductive Instr where
  /-- NOP, R170. -/
  | nop
  /-- CRCINIT, R105. -/
  | crcinit
  /-- CRCBYTE B, R106. -/
  | crcbyte (b : Byte)
  /-- CRCCMP B, R107. -/
  | crccmp (b : Byte)
  /-- VALT D0, D1, C, R124. -/
  | valt (d0 d1 c : Byte)
  /-- VALH D0, D1, C, R125. -/
  | valh (d0 d1 c : Byte)
  /-- CONVAT, R151. -/
  | convat
  /-- CONVAH, R152. -/
  | convah
  /-- CONVBT, R153. -/
  | convbt
  /-- CONVBH, R154. -/
  | convbh
  /-- CONVRAT RAW, R156. -/
  | convrat (raw : Half)
  /-- CONVRAH RAW, R157. -/
  | convrah (raw : Half)
  /-- CONVRBT RAW, R158. -/
  | convrbt (raw : Half)
  /-- CONVRBH RAW, R159. -/
  | convrbh (raw : Half)
  /-- CLRSTAT, R171. -/
  | clrstat
  /-- SRESET, R172. -/
  | sreset
  deriving DecidableEq, Repr

end Sys2Proof
end

