-- ==== Sys2Proof/WellFormed.lean ====
section
/-!
DEFINITION. The assembly language of 30_encoding.md R92-R94 as terms whose operands are plain numbers, and the
check that they fit their fields (R92: "The assembler refuses an operand that does not fit; it never truncates one").
-/

namespace Sys2Proof

/-- The four command formats (R82-R86). -/
inductive Format where
  | N | B | V | R
  deriving DecidableEq, Repr

/-- The widths in bits of a format's operands, in the order the assembler writes them (R83-R86, R92). -/
def Format.operandWidths : Format → List Nat
  | .N => []
  | .B => [8]
  | .V => [8, 8, 8]
  | .R => [16]

/-- The sixteen command names (R88). -/
inductive Mnemonic where
  | nop | crcinit | crcbyte | crccmp | valt | valh
  | convat | convah | convbt | convbh | convrat | convrah | convrbt | convrbh
  | clrstat | sreset
  deriving DecidableEq, Repr

/-- The format column of the opcode map (R88). -/
def Mnemonic.format : Mnemonic → Format
  | .nop | .crcinit | .convat | .convah | .convbt | .convbh | .clrstat | .sreset => .N
  | .crcbyte | .crccmp => .B
  | .valt | .valh => .V
  | .convrat | .convrah | .convrbt | .convrbh => .R

/-- A command line of the assembler: a name and its operands as numbers (R92). -/
structure AsmCommand where
  mnemonic : Mnemonic
  operands : List Nat
  deriving DecidableEq, Repr

/-- Each number fits the field in its place, unsigned, and there are as many numbers as fields (R92). -/
def operandsFit : List Nat → List Nat → Bool
  | [], [] => true
  | width :: widths, v :: vs => decide (v < 2 ^ width) && operandsFit widths vs
  | _, _ => false

/-- The assembler accepts this command line (R92). -/
def AsmCommand.wellFormed (c : AsmCommand) : Bool :=
  operandsFit c.mnemonic.format.operandWidths c.operands

/-- The command line that names an instruction (R92). -/
def Instr.toAsm : Instr → AsmCommand
  | .nop => ⟨.nop, []⟩
  | .crcinit => ⟨.crcinit, []⟩
  | .crcbyte b => ⟨.crcbyte, [b.toNat]⟩
  | .crccmp b => ⟨.crccmp, [b.toNat]⟩
  | .valt d0 d1 c => ⟨.valt, [d0.toNat, d1.toNat, c.toNat]⟩
  | .valh d0 d1 c => ⟨.valh, [d0.toNat, d1.toNat, c.toNat]⟩
  | .convat => ⟨.convat, []⟩
  | .convah => ⟨.convah, []⟩
  | .convbt => ⟨.convbt, []⟩
  | .convbh => ⟨.convbh, []⟩
  | .convrat raw => ⟨.convrat, [raw.toNat]⟩
  | .convrah raw => ⟨.convrah, [raw.toNat]⟩
  | .convrbt raw => ⟨.convrbt, [raw.toNat]⟩
  | .convrbh raw => ⟨.convrbh, [raw.toNat]⟩
  | .clrstat => ⟨.clrstat, []⟩
  | .sreset => ⟨.sreset, []⟩

/-- An instruction is well formed when its own command line is (R92); the field types make this hold always. -/
def Instr.wellFormed (i : Instr) : Bool := i.toAsm.wellFormed

/-- A line of a host program: a command (R92), a pseudo-instruction (R94) or a register access (R93). -/
inductive AsmLine where
  | command (c : AsmCommand)
  | wr (reg : Reg) (value : Nat)
  | rd (reg : Reg)
  | crcSpan (bytes : List Nat)
  | crcCheck (bytes : List Nat) (c : Nat)
  | setupA
  | setupB
  | frameAT (m l c : Nat)
  | frameAH (m l c : Nat)
  | frameB (t0 t1 tc h0 h1 hc : Nat)
  deriving DecidableEq, Repr

/-- The assembler accepts this line: every operand fits its field (R92), a `wr` value is a 32-bit value (R93), and a
span has at least the byte `b0` that R94 writes (log entry 12). -/
def AsmLine.wellFormed : AsmLine → Bool
  | .command c => c.wellFormed
  | .wr _ value => decide (value < 2 ^ 32)
  | .rd _ => true
  | .crcSpan bytes => !bytes.isEmpty && bytes.all (fun b => decide (b < 2 ^ 8))
  | .crcCheck bytes c => !bytes.isEmpty && (bytes ++ [c]).all (fun b => decide (b < 2 ^ 8))
  | .setupA => true
  | .setupB => true
  | .frameAT m l c => [m, l, c].all (fun b => decide (b < 2 ^ 8))
  | .frameAH m l c => [m, l, c].all (fun b => decide (b < 2 ^ 8))
  | .frameB t0 t1 tc h0 h1 hc => [t0, t1, tc, h0, h1, hc].all (fun b => decide (b < 2 ^ 8))

end Sys2Proof
end

