-- ==== Sys2Proof/Decode.lean ====
section
/-!
DEFINITION. The opcode map, the command decoder and the encoder (30_encoding.md R80-R90), and the byte lanes a
word travels in (20_memory.md R61).
-/

namespace Sys2Proof

/-! ### Byte lanes (R61) -/

/-- The `n` bytes of the number `v`, byte 0 (the lowest address) first: byte `k` is bits `8k+7:8k` (R61). -/
def lanes : Nat → Nat → List Byte
  | 0, _ => []
  | n + 1, v => BitVec.ofNat 8 v :: lanes n (v / 256)

/-- The four byte lanes of a register value (R61). -/
def wordLanes (w : Word) : List Byte := lanes 4 w.toNat

/-- The value whose byte `k` is the list's element `k` (R61). -/
def wordOfLanes : List Byte → Word
  | [] => 0#32
  | b :: bs => (wordOfLanes bs <<< 8) ||| b.setWidth 32

/-! ### Fields of a command word (R82-R87) -/

/-- OP = w[31:24] (R82). -/
def opField (w : Word) : Byte := w.extractLsb' 24 8
/-- B = w[7:0] (R85); also C = w[7:0] (R84). -/
def bField (w : Word) : Byte := w.extractLsb' 0 8
/-- D1 = w[15:8] (R84). -/
def d1Field (w : Word) : Byte := w.extractLsb' 8 8
/-- D0 = w[23:16] (R84). -/
def d0Field (w : Word) : Byte := w.extractLsb' 16 8
/-- RAW = w[15:0] (R86). -/
def rawField (w : Word) : Half := w.extractLsb' 0 16

/-! ### The opcode map (R88) -/

/-- One row of the opcode map: the columns mnemonic, match and mask of R88. -/
structure Row where
  mnemonic : Mnemonic
  pattern : Word
  mask : Word
  deriving DecidableEq, Repr

/-- "A word matches a row when `w & mask = match`" (R88). -/
def Row.hits (r : Row) (w : Word) : Bool := w &&& r.mask == r.pattern

/-- The opcode map of R88, in its order. -/
def opcodeMap : List Row := [
  ⟨.nop,     0x00000000#32, 0xFFFFFFFF#32⟩,
  ⟨.crcinit, 0x01000000#32, 0xFFFFFFFF#32⟩,
  ⟨.crcbyte, 0x02000000#32, 0xFFFFFF00#32⟩,
  ⟨.crccmp,  0x03000000#32, 0xFFFFFF00#32⟩,
  ⟨.valt,    0x10000000#32, 0xFF000000#32⟩,
  ⟨.valh,    0x11000000#32, 0xFF000000#32⟩,
  ⟨.convat,  0x20000000#32, 0xFFFFFFFF#32⟩,
  ⟨.convah,  0x21000000#32, 0xFFFFFFFF#32⟩,
  ⟨.convbt,  0x22000000#32, 0xFFFFFFFF#32⟩,
  ⟨.convbh,  0x23000000#32, 0xFFFFFFFF#32⟩,
  ⟨.convrat, 0x30000000#32, 0xFFFF0000#32⟩,
  ⟨.convrah, 0x31000000#32, 0xFFFF0000#32⟩,
  ⟨.convrbt, 0x32000000#32, 0xFFFF0000#32⟩,
  ⟨.convrbh, 0x33000000#32, 0xFFFF0000#32⟩,
  ⟨.clrstat, 0x40000000#32, 0xFFFFFFFF#32⟩,
  ⟨.sreset,  0xF0000000#32, 0xFFFFFFFF#32⟩]

/-- The command a row names, with the operands the word holds in the row's format (R83-R87). -/
def Mnemonic.instr (m : Mnemonic) (w : Word) : Instr :=
  match m with
  | .nop => .nop
  | .crcinit => .crcinit
  | .crcbyte => .crcbyte (bField w)
  | .crccmp => .crccmp (bField w)
  | .valt => .valt (d0Field w) (d1Field w) (bField w)
  | .valh => .valh (d0Field w) (d1Field w) (bField w)
  | .convat => .convat
  | .convah => .convah
  | .convbt => .convbt
  | .convbh => .convbh
  | .convrat => .convrat (rawField w)
  | .convrah => .convrah (rawField w)
  | .convrbt => .convrbt (rawField w)
  | .convrbh => .convrbh (rawField w)
  | .clrstat => .clrstat
  | .sreset => .sreset

/-! ### The decoder (R80, R89) -/

/-- Why bytes are no command. The first two are the illegal words of R89, which a CMD write answers by setting ILLCMD;
`truncated` cannot reach CMD, since the block accepts only 32-bit accesses (R63). -/
inductive DecodeError where
  /-- OP is not one of the 16 opcodes listed (R89, R90). -/
  | unlistedOpcode (op : Byte)
  /-- OP is listed, and a bit that its format requires to be zero is set (R83, R85, R86, R89). -/
  | reservedBitSet (op : Byte)
  /-- Fewer than the four bytes of a command word (R81). -/
  | truncated
  deriving DecidableEq, Repr

/-- The name of an illegal word's fault: its OP is in the map's OP column, or it is not (R89). -/
def illegalReason (w : Word) : DecodeError :=
  if opcodeMap.any (fun r => opField r.pattern == opField w) then .reservedBitSet (opField w)
  else .unlistedOpcode (opField w)

/-- The row that matches a word, if there is one (R80 step 1). -/
def findRow (w : Word) : Option Row := opcodeMap.find? (fun r => r.hits w)

/-- The command decoder (R80): the command of the row that matches, or why none does. -/
def decode (w : Word) : Except DecodeError Instr :=
  match findRow w with
  | some r => .ok (r.mnemonic.instr w)
  | none => .error (illegalReason w)

/-- The decoder on bytes: the first four are a command word in its byte lanes (R61, R81); the rest is handed back. -/
def decodeBytes : List Byte → Except DecodeError (Instr × List Byte)
  | b0 :: b1 :: b2 :: b3 :: rest =>
    match decode (wordOfLanes [b0, b1, b2, b3]) with
    | .ok i => .ok (i, rest)
    | .error e => .error e
  | _ => .error .truncated

/-- The instruction the decoder reads from a table row's bits, laid out in byte lanes. -/
def decodeTableWord (nbits w : Nat) : Option Instr :=
  match decodeBytes (lanes 4 (w % 2 ^ nbits)) with
  | .ok (i, _) => some i
  | .error _ => none

/-! ### The encoder (R83-R86, R88) -/

/-- Format N: {OP, 0x000000} (R83). -/
def encodeN (op : Byte) : Word := op ++ 0#24
/-- Format B: {OP, 0x0000, B} (R85). -/
def encodeB (op b : Byte) : Word := op ++ 0#16 ++ b
/-- Format V: {OP, D0, D1, C} (R84). -/
def encodeV (op d0 d1 c : Byte) : Word := op ++ d0 ++ d1 ++ c
/-- Format R: {OP, 0x00, RAW} (R86). -/
def encodeR (op : Byte) (raw : Half) : Word := op ++ 0#8 ++ raw

/-- The command word of an instruction: the OP column and the format of its row (R88). -/
def encode : Instr → Word
  | .nop => encodeN 0x00#8
  | .crcinit => encodeN 0x01#8
  | .crcbyte b => encodeB 0x02#8 b
  | .crccmp b => encodeB 0x03#8 b
  | .valt d0 d1 c => encodeV 0x10#8 d0 d1 c
  | .valh d0 d1 c => encodeV 0x11#8 d0 d1 c
  | .convat => encodeN 0x20#8
  | .convah => encodeN 0x21#8
  | .convbt => encodeN 0x22#8
  | .convbh => encodeN 0x23#8
  | .convrat raw => encodeR 0x30#8 raw
  | .convrah raw => encodeR 0x31#8 raw
  | .convrbt raw => encodeR 0x32#8 raw
  | .convrbh raw => encodeR 0x33#8 raw
  | .clrstat => encodeN 0x40#8
  | .sreset => encodeN 0xF0#8

end Sys2Proof
end

