-- ==== Sys2Proof/Machine/State.lean ====
section
/-!
DEFINITION. The state of RIOT-CRC8CONV (10_state.md R45, R47), what the platform puts before it (bus accesses and
reset), what it answers, how a step can stop, and the state after reset (70_reset_and_hazards.md R200).
-/

namespace Sys2Proof.Machine

/-- The block's own state: the tuple of R47, field for field, and nothing else (R45). -/
structure Regs where
  /-- CTRL.CHKEN: checksum mode, `true` is Enabled (R25). -/
  chken : Bool
  /-- POLY: the CRC polynomial without its x^8 term (R26). -/
  poly : Byte
  /-- INIT: the CRC initial value (R27). -/
  init : Byte
  /-- CRC.STATE: the running CRC (R28). -/
  crc : Byte
  /-- STATUS.MATCH, bit 0 (R30). -/
  matched : Bool
  /-- STATUS.TVALID, bit 1 (R31). -/
  tvalid : Bool
  /-- STATUS.HVALID, bit 2 (R32). -/
  hvalid : Bool
  /-- STATUS.TCHKERR, bit 3 (R33). -/
  tchkerr : Bool
  /-- STATUS.HCHKERR, bit 4 (R34). -/
  hchkerr : Bool
  /-- STATUS.RTVALID, bit 5 (R35). -/
  rtvalid : Bool
  /-- STATUS.RHVALID, bit 6 (R36). -/
  rhvalid : Bool
  /-- STATUS.CONVERR, bit 7, sticky (R37). -/
  converr : Bool
  /-- STATUS.ILLCMD, bit 8, sticky (R38). -/
  illcmd : Bool
  /-- RAWT: the last accepted temperature field (R39). -/
  rawt : Half
  /-- RAWH: the last accepted humidity field (R40). -/
  rawh : Half
  /-- REST: the last temperature result, an s32 pattern (R41, R160). -/
  rest : Word
  /-- RESH: the last humidity result, an s32 pattern (R42, R160). -/
  resh : Word
  /-- LASTCRC: the CRC the last VALT or VALH computed (R43). -/
  lastcrc : Byte
  deriving DecidableEq, Repr

/-- The reset values of R200. -/
def Regs.reset : Regs where
  chken := true
  poly := 0x31#8
  init := 0x00#8
  crc := 0x00#8
  matched := false
  tvalid := false
  hvalid := false
  tchkerr := false
  hchkerr := false
  rtvalid := false
  rhvalid := false
  converr := false
  illcmd := false
  rawt := 0x0000#16
  rawh := 0x0000#16
  rest := 0x00000000#32
  resh := 0x00000000#32
  lastcrc := 0x00#8

/-- The two fields a frame can carry (R62, R120): each has its own latch, result and STATUS bits. -/
inductive Quantity where
  | temperature
  | humidity
  deriving DecidableEq, Repr

/-- A host access (R10). An address is kept as its distance from `BASE`, which is all any rule reads of it
(log entry 1); a write's data is its byte lanes, byte 0 first, so its size is their number (R61, log entry 2). -/
inductive Access where
  /-- MemRead(BASE + offset, size). -/
  | read (offset : Int) (size : Nat)
  /-- MemWrite(BASE + offset, number of bytes, value). -/
  | write (offset : Int) (data : List Byte)
  deriving DecidableEq, Repr

/-- What the platform does to the block, one at a time in arrival order (R72, R201). -/
inductive Event where
  /-- A bus master's access (R71, R193: no master is told from another). -/
  | access (a : Access)
  /-- The reset input is driven to this level; asserting it performs the reset (R201). -/
  | resetInput (asserted : Bool)
  /-- Power-up, which performs the reset (R196, R201). -/
  | powerUp
  deriving DecidableEq, Repr

/-- What the block puts on the bus to end an access. -/
inductive Response where
  /-- A read's value (R65). -/
  | value (v : Word)
  /-- A write completed normally (R66, R89). -/
  | written
  /-- The bus error response to AccessError(BASE + offset) (R181). -/
  | accessError (offset : Int)
  deriving DecidableEq, Repr

/-- Why an access faults. -/
inductive Fault where
  /-- AccessError(BASE + offset) of R181, raised by `performAccess` for an access inside the window whose size is not 4
  or whose address is not 4-byte aligned (R63, R64). It is the access that faults, not the block: `step` answers it
  with the bus error response and goes on with every register unchanged, so no step of the machine ends in it.
  Safe: it is the outcome the spec gives. -/
  | accessError (offset : Int)
  deriving DecidableEq, Repr

/-- Why there is no step. -/
inductive Refusal where
  /-- An instruction that has no meaning yet, raised by `exec`. Safe: nothing is claimed of it. No arm raises it. -/
  | notModelled (mnemonic : String)
  /-- An access outside `BASE .. BASE + 0x3F`, raised by `performAccess`: the block does not decode it, and what it does
  is the platform's business (R70; P3: the model has no step for it). Safe: the model stops. -/
  | outsideWindow (offset : Int)
  /-- An access while the reset input is asserted, raised by `performAccess`: the answer is the platform's business
  (R201; P4: the model performs none). Safe: the model stops. -/
  | accessDuringReset (offset : Int)
  deriving DecidableEq, Repr

/-- The machine: the block's registers, and the platform around it, which is the model's own (log entry 3). -/
structure State where
  /-- The block's state (R47). -/
  regs : Regs
  /-- The level of the reset input (R201). -/
  resetAsserted : Bool
  /-- The events still to arrive, the first one first (R21, R72). -/
  pending : List Event
  /-- The block's answer to the latest access it performed. -/
  response : Option Response
  deriving DecidableEq, Repr

/-- The machine right after reset: R200's values, the reset input released, nothing on the bus (R202). -/
def State.reset : State where
  regs := Regs.reset
  resetAsserted := false
  pending := []
  response := none

end Sys2Proof.Machine
end

