-- ==== Sys2Proof/Machine/Flags.lean ====
section
/-!
DEFINITION. STATUS: its word as the host reads it (10_state.md R29, 20_memory.md R65) and the two tests that decide a
result bit (40_crc.md R107, 41_validate.md R121 and R123).
-/

namespace Sys2Proof.Machine

/-- {ILLCMD, CONVERR, RHVALID, RTVALID, HCHKERR, TCHKERR, HVALID, TVALID, MATCH} (R65), bit 8 down to bit 0. -/
def Regs.statusBits (r : Regs) : BitVec 9 :=
  BitVec.ofBool r.illcmd ++ BitVec.ofBool r.converr ++ BitVec.ofBool r.rhvalid ++ BitVec.ofBool r.rtvalid ++
    BitVec.ofBool r.hchkerr ++ BitVec.ofBool r.tchkerr ++ BitVec.ofBool r.hvalid ++ BitVec.ofBool r.tvalid ++
    BitVec.ofBool r.matched

/-- The STATUS word: the nine bits, zero-extended; bits 31:9 are always 0 (R29, R65). -/
def Regs.statusWord (r : Regs) : Word := r.statusBits.setWidth 32

/-- MATCH's rule: the running CRC equals the byte (R107). -/
def crcMatches (state b : Byte) : Bool := state == b

/-- `pass <- (CHKEN = 0) or (c = C)` (R123, R124): equality decides when checksum mode is enabled (R121). -/
def fieldPasses (chken : Bool) (computed c : Byte) : Bool := !chken || computed == c

end Sys2Proof.Machine
end

