-- ==== Sys2Proof/Machine/Operands.lean ====
section
/-!
DEFINITION. What the commands compute from: the raw value of a field (30_encoding.md R87), the family A mask
(42_convert.md R141), and the implicit register operands of a quantity (41_validate.md, 42_convert.md R150).
-/

namespace Sys2Proof.Machine

/-- The raw value {D0, D1} of a field (R62, R87). -/
def rawOfField (d0 d1 : Byte) : Half := d0 ++ d1

/-- Family A clears the two status bits: `raw & 0xFFFC` (R141). -/
def maskA (raw : Half) : Half := raw &&& 0xFFFC#16

/-- TVALID or HVALID: the bit that gates the quantity's conversions (R150). -/
def Regs.valid (r : Regs) : Quantity → Bool
  | .temperature => r.tvalid
  | .humidity => r.hvalid

/-- RAWT or RAWH: the latch the quantity's gated conversions read (R150). -/
def Regs.raw (r : Regs) : Quantity → Half
  | .temperature => r.rawt
  | .humidity => r.rawh

end Sys2Proof.Machine
end

