-- ==== Sys2Proof/Machine/Ops.lean ====
section
/-!
DEFINITION. The named operations on the registers: one update per effect the command rules name, the host's reads and
writes of the window (20_memory.md R65, R66), reset (70_reset_and_hazards.md R200) and the block's one exception,
AccessError (60_exceptions.md R181). There is no return from an exception (R186).
-/

namespace Sys2Proof.Machine

/-! ### Updates of the registers -/

/-- `STATE <- v` (R28, R105, R106). -/
def Regs.setCrc (r : Regs) (v : Byte) : Regs := { r with crc := v }

/-- `MATCH <- v` (R107). -/
def Regs.setMatch (r : Regs) (v : Bool) : Regs := { r with matched := v }

/-- `CHKEN <- v` (R25). -/
def Regs.setChken (r : Regs) (v : Bool) : Regs := { r with chken := v }

/-- `POLY <- v` (R26). -/
def Regs.setPoly (r : Regs) (v : Byte) : Regs := { r with poly := v }

/-- `INIT <- v` (R27). -/
def Regs.setInit (r : Regs) (v : Byte) : Regs := { r with init := v }

/-- `LASTCRC <- c` (R43, R124). -/
def Regs.setLastCrc (r : Regs) (c : Byte) : Regs := { r with lastcrc := c }

/-- A field passed: latch the raw value, VALID 1, CHKERR 0 (R124, R125). -/
def Regs.acceptField (r : Regs) (q : Quantity) (raw : Half) : Regs :=
  match q with
  | .temperature => { r with rawt := raw, tvalid := true, tchkerr := false }
  | .humidity => { r with rawh := raw, hvalid := true, hchkerr := false }

/-- A field failed: VALID 0, CHKERR 1, the latch keeps its value (R124, R125). -/
def Regs.rejectField (r : Regs) (q : Quantity) : Regs :=
  match q with
  | .temperature => { r with tvalid := false, tchkerr := true }
  | .humidity => { r with hvalid := false, hchkerr := true }

/-- `RTVALID <- 0` or `RHVALID <- 0`: the result is stale (R124, R125, R208). -/
def Regs.clearResult (r : Regs) (q : Quantity) : Regs :=
  match q with
  | .temperature => { r with rtvalid := false }
  | .humidity => { r with rhvalid := false }

/-- `RES <- v; RVALID <- 1` (R150, R155). -/
def Regs.storeResult (r : Regs) (q : Quantity) (v : Word) : Regs :=
  match q with
  | .temperature => { r with rest := v, rtvalid := true }
  | .humidity => { r with resh := v, rhvalid := true }

/-- `CONVERR <- 1` (R150). -/
def Regs.setConverr (r : Regs) : Regs := { r with converr := true }

/-- `ILLCMD <- 1` and nothing else: the whole effect of an illegal command word (R89). -/
def Regs.setIllcmd (r : Regs) : Regs := { r with illcmd := true }

/-- `CONVERR <- 0; ILLCMD <- 0` (R171). -/
def Regs.clearSticky (r : Regs) : Regs := { r with converr := false, illcmd := false }

/-! ### Updates of the machine -/

/-- A command's effect is on the block's registers alone (R45). -/
def State.mapRegs (s : State) (f : Regs → Regs) : State := { s with regs := f s.regs }

/-- The reset of R200, performed by power-up, the reset input and SRESET alike (R201): every register takes its reset
value. What the platform holds is no state of the block and stays (log entry 8). -/
def State.resetRegs (s : State) : State := { s with regs := Regs.reset }

/-- The block ends the access with this answer. -/
def State.respond (s : State) (x : Response) : State := { s with response := some x }

/-- Taking AccessError(BASE + offset): the bus error response, no register changed, nothing recorded (R181). -/
def State.raiseAccessError (s : State) (offset : Int) : State := s.respond (.accessError offset)

/-! ### The window (R23, R65, R66) -/

/-- The offset of each register (R23). -/
def regOffset : Reg → Nat
  | .cmd => 0x00
  | .ctrl => 0x04
  | .poly => 0x08
  | .init => 0x0C
  | .crc => 0x10
  | .status => 0x14
  | .rawt => 0x18
  | .rawh => 0x1C
  | .rest => 0x20
  | .resh => 0x24
  | .lastcrc => 0x28

/-- All eleven registers, in offset order (R69). -/
def allRegs : List Reg :=
  [.cmd, .ctrl, .poly, .init, .crc, .status, .rawt, .rawh, .rest, .resh, .lastcrc]

/-- The register at an offset; none where the offset is reserved (R23, R44). -/
def regAt (offset : Nat) : Option Reg := allRegs.find? (fun g => regOffset g == offset)

/-- What an aligned 32-bit read of a register returns (R65). -/
def Regs.read (r : Regs) : Reg → Word
  | .cmd => 0#32
  | .ctrl => (BitVec.ofBool r.chken).setWidth 32
  | .poly => r.poly.setWidth 32
  | .init => r.init.setWidth 32
  | .crc => r.crc.setWidth 32
  | .status => r.statusWord
  | .rawt => r.rawt.setWidth 32
  | .rawh => r.rawh.setWidth 32
  | .rest => r.rest
  | .resh => r.resh
  | .lastcrc => r.lastcrc.setWidth 32

/-- What an aligned 32-bit read of the window returns: the register there, or 0 at a reserved offset (R65). -/
def Regs.readWindow (r : Regs) (offset : Nat) : Word :=
  match regAt offset with
  | some g => r.read g
  | none => 0#32

/-- The effect on the registers of an aligned 32-bit write at a place that is not CMD (R66): read-only registers
and reserved offsets ignore it. A write to CMD is the command's execution, in `performAccess`. -/
def Regs.writeReg (r : Regs) (g : Option Reg) (v : Word) : Regs :=
  match g with
  | some .ctrl => r.setChken (v.getLsbD 0)
  | some .poly => r.setPoly (v.extractLsb' 0 8)
  | some .init => r.setInit (v.extractLsb' 0 8)
  | some .crc => r.setCrc (v.extractLsb' 0 8)
  | some .cmd | some .status | some .rawt | some .rawh | some .rest | some .resh | some .lastcrc => r
  | none => r

end Sys2Proof.Machine
end

