-- ==== Sys2Proof/Machine/Control.lean ====
section
/-!
DEFINITION. The control commands (43_control.md): NOP (R170), CLRSTAT (R171) and SRESET (R172).
-/

namespace Sys2Proof.Machine

/-- NOP: no state changes (R170). -/
def execNop (s : State) : Host.Outcome State Fault Refusal := .next s

/-- CLRSTAT: `CONVERR <- 0; ILLCMD <- 0` (R171). -/
def execClrstat (s : State) : Host.Outcome State Fault Refusal := .next (s.mapRegs Regs.clearSticky)

/-- SRESET: the reset of R200 (R172, R201). -/
def execSreset (s : State) : Host.Outcome State Fault Refusal := .next s.resetRegs

end Sys2Proof.Machine
end

