-- ==== Sys2Proof/Machine/Convert.lean ====
section
/-!
DEFINITION. The linear converter (42_convert.md): the four functions on exact integers (R142-R145), the result's encoding
(R160), the gated (R150) and the direct (R155) conversion, and the eight conversion commands (R151-R159).
-/

namespace Sys2Proof.Machine

/-- Family A temperature in 0.01 °C: `(m * 17572) // 65536 - 4685` with m masked (R142). -/
def fAT (raw : Half) : Int := ((maskA raw).toNat * 17572 : Int) / 65536 - 4685

/-- Family A relative humidity in 0.01 %RH: `(m * 12500) // 65536 - 600` with m masked (R143). -/
def fAH (raw : Half) : Int := ((maskA raw).toNat * 12500 : Int) / 65536 - 600

/-- Family B temperature in 0.001 °C: `-45000 + (raw * 175000) // 65535`, no mask (R144). -/
def fBT (raw : Half) : Int := -45000 + (raw.toNat * 175000 : Int) / 65535

/-- Family B relative humidity in 0.01 %RH: `(raw * 10000) // 65535`, no mask (R145). -/
def fBH (raw : Half) : Int := (raw.toNat * 10000 : Int) / 65535

/-- `to_s32(v)`: the 32-bit two's complement of an integer (R9, R160). -/
def toS32 (v : Int) : Word := BitVec.ofInt 32 v

/-- `gated(f, VALID, RAW, RES, RVALID)` (R150): convert the latch if it is valid; else refuse, which clears RVALID, sets
CONVERR and keeps the result. -/
def Regs.convertLatched (r : Regs) (q : Quantity) (f : Half → Int) : Regs :=
  if r.valid q then r.storeResult q (toS32 (f (r.raw q)))
  else (r.clearResult q).setConverr

/-- `direct(f, RAW, RES, RVALID)` (R155): convert the operand, whatever the field's validity. -/
def Regs.convertOperand (r : Regs) (q : Quantity) (f : Half → Int) (raw : Half) : Regs :=
  r.storeResult q (toS32 (f raw))

/-- CONVAT (R151). -/
def execConvat (s : State) : Host.Outcome State Fault Refusal :=
  .next (s.mapRegs fun r => r.convertLatched .temperature fAT)

/-- CONVAH (R152). -/
def execConvah (s : State) : Host.Outcome State Fault Refusal :=
  .next (s.mapRegs fun r => r.convertLatched .humidity fAH)

/-- CONVBT (R153). -/
def execConvbt (s : State) : Host.Outcome State Fault Refusal :=
  .next (s.mapRegs fun r => r.convertLatched .temperature fBT)

/-- CONVBH (R154). -/
def execConvbh (s : State) : Host.Outcome State Fault Refusal :=
  .next (s.mapRegs fun r => r.convertLatched .humidity fBH)

/-- CONVRAT (R156). -/
def execConvrat (raw : Half) (s : State) : Host.Outcome State Fault Refusal :=
  .next (s.mapRegs fun r => r.convertOperand .temperature fAT raw)

/-- CONVRAH (R157). -/
def execConvrah (raw : Half) (s : State) : Host.Outcome State Fault Refusal :=
  .next (s.mapRegs fun r => r.convertOperand .humidity fAH raw)

/-- CONVRBT (R158). -/
def execConvrbt (raw : Half) (s : State) : Host.Outcome State Fault Refusal :=
  .next (s.mapRegs fun r => r.convertOperand .temperature fBT raw)

/-- CONVRBH (R159). -/
def execConvrbh (raw : Half) (s : State) : Host.Outcome State Fault Refusal :=
  .next (s.mapRegs fun r => r.convertOperand .humidity fBH raw)

end Sys2Proof.Machine
end

