-- ==== Sys2Proof/Machine/Crc.lean ====
section
/-!
DEFINITION. The CRC-8 engine (40_crc.md): the functions of R100 and R102, and the commands CRCINIT (R105),
CRCBYTE (R106) and CRCCMP (R107).
-/

namespace Sys2Proof.Machine

/-- One iteration of R100: test bit 7, shift left, XOR the polynomial if the tested bit was 1. -/
def crcShift (p s : Byte) : Byte := if s.getLsbD 7 then (s <<< 1) ^^^ p else s <<< 1

/-- That many iterations of R100, one after another. -/
def crcShifts (p : Byte) : Nat → Byte → Byte
  | 0, s => s
  | n + 1, s => crcShifts p n (crcShift p s)

/-- `crc8_step(s, b, p)` (R100): XOR the byte in, then exactly 8 iterations. -/
def crc8Step (s b p : Byte) : Byte := crcShifts p 8 (s ^^^ b)

/-- `crc8(init, p, data)` (R102): the step over each byte, first to last. -/
def crc8 (init p : Byte) : List Byte → Byte
  | [] => init
  | b :: data => crc8 (crc8Step init b p) p data

/-- CRCINIT: `STATE <- INIT` (R105). -/
def execCrcinit (s : State) : Host.Outcome State Fault Refusal :=
  .next (s.mapRegs fun r => r.setCrc r.init)

/-- CRCBYTE: `STATE <- crc8_step(STATE, B, POLY)` (R106). -/
def execCrcbyte (b : Byte) (s : State) : Host.Outcome State Fault Refusal :=
  .next (s.mapRegs fun r => r.setCrc (crc8Step r.crc b r.poly))

/-- CRCCMP: `MATCH <- (STATE = B) ? 1 : 0`, whatever CHKEN is (R107). -/
def execCrccmp (b : Byte) (s : State) : Host.Outcome State Fault Refusal :=
  .next (s.mapRegs fun r => r.setMatch (crcMatches r.crc b))

end Sys2Proof.Machine
end

