-- ==== Sys2Proof/Machine/Validate.lean ====
section
/-!
DEFINITION. Field validation (41_validate.md): the pseudocode that VALT (R124) and VALH (R125) share, over the quantity
whose latch and STATUS bits it writes, and the two commands.
-/

namespace Sys2Proof.Machine

/-- The CRC of a field's two data bytes, MSB first (R62, R121). -/
def fieldCrc (r : Regs) (d0 d1 : Byte) : Byte := crc8 r.init r.poly [d0, d1]

/-- The pseudocode of R124 and R125: record the computed CRC, accept or reject the field, mark its result stale. -/
def Regs.validateField (r : Regs) (q : Quantity) (d0 d1 c : Byte) : Regs :=
  let computed := fieldCrc r d0 d1
  let recorded := r.setLastCrc computed
  let judged :=
    if fieldPasses r.chken computed c then recorded.acceptField q (rawOfField d0 d1)
    else recorded.rejectField q
  judged.clearResult q

/-- VALT: validate a temperature field (R124). -/
def execValt (d0 d1 c : Byte) (s : State) : Host.Outcome State Fault Refusal :=
  .next (s.mapRegs fun r => r.validateField .temperature d0 d1 c)

/-- VALH: validate a humidity field (R125). -/
def execValh (d0 d1 c : Byte) (s : State) : Host.Outcome State Fault Refusal :=
  .next (s.mapRegs fun r => r.validateField .humidity d0 d1 c)

end Sys2Proof.Machine
end

