-- ==== Sys2Proof/Machine/Dispatch.lean ====
section
/-!
DEFINITION. The execution of a decoded command (30_encoding.md R80 step 2): one arm per row of the opcode map.
-/

namespace Sys2Proof.Machine

def exec (i : Instr) (s : State) : Host.Outcome State Fault Refusal :=
  match i with
  | .nop => Sys2Proof.Machine.execNop s
  | .crcinit => Sys2Proof.Machine.execCrcinit s
  | .crcbyte b => Sys2Proof.Machine.execCrcbyte b s
  | .crccmp b => Sys2Proof.Machine.execCrccmp b s
  | .valt d0 d1 c => Sys2Proof.Machine.execValt d0 d1 c s
  | .valh d0 d1 c => Sys2Proof.Machine.execValh d0 d1 c s
  | .convat => Sys2Proof.Machine.execConvat s
  | .convah => Sys2Proof.Machine.execConvah s
  | .convbt => Sys2Proof.Machine.execConvbt s
  | .convbh => Sys2Proof.Machine.execConvbh s
  | .convrat raw => Sys2Proof.Machine.execConvrat raw s
  | .convrah raw => Sys2Proof.Machine.execConvrah raw s
  | .convrbt raw => Sys2Proof.Machine.execConvrbt raw s
  | .convrbh raw => Sys2Proof.Machine.execConvrbh raw s
  | .clrstat => Sys2Proof.Machine.execClrstat s
  | .sreset => Sys2Proof.Machine.execSreset s

end Sys2Proof.Machine
end

