-- ==== Sys2Proof/Machine/Access.lean ====
section
/-!
DEFINITION. What the platform does to the block: a host access (20_memory.md R60-R70, 60_exceptions.md R181 and R184),
the reset input and power-up (70_reset_and_hazards.md R201).
-/

namespace Sys2Proof.Machine

/-! ### The access as the host writes it -/

/-- `MemRead(addr, n)` (R10): the access at its distance from `BASE`. -/
def memRead (addr n : Nat) : Access := .read ((addr : Int) - Config.base) n

/-- `MemWrite(addr, n, v)` (R10): `n` bytes, the value's byte `k` in lane `k` (R61). -/
def memWrite (addr n v : Nat) : Access := .write ((addr : Int) - Config.base) (lanes n v)

/-- The distance of the access's address from `BASE`. -/
def Access.offset : Access → Int
  | .read offset _ => offset
  | .write offset _ => offset

/-- The size of the access in bytes: `n` of `MemRead(addr, n)` and `MemWrite(addr, n, v)`. -/
def Access.size : Access → Nat
  | .read _ size => size
  | .write _ data => data.length

/-- The address lies in `BASE .. BASE + 0x3F` (R60, R70). -/
def Access.inWindow (a : Access) : Bool := decide (0 ≤ a.offset) && decide (a.offset < Config.windowBytes)

/-- The access is one the block accepts: 4 bytes, at a 4-byte aligned address (R63, R64). -/
def Access.wellSized (a : Access) : Bool := a.size == 4 && decide (a.offset % 4 = 0)

/-! ### Performing it -/

/-- `exec(w)` (R80): the command the word is, or ILLCMD if it is none (R89). -/
def execWord (w : Word) (s : State) : Host.Outcome State Fault Refusal :=
  match decode w with
  | .ok i => exec i s
  | .error _ => .next (s.mapRegs Regs.setIllcmd)

/-- An aligned 32-bit write (R66): a command at CMD, a field elsewhere. -/
def writeWindow (offset : Nat) (v : Word) (s : State) : Host.Outcome State Fault Refusal :=
  match regAt offset with
  | some .cmd => execWord v s
  | g => .next (s.mapRegs fun r => r.writeReg g v)

/-- One access, in the order of R184: size and alignment first, then the register. Outside the window (R70, P3) and while
the reset input is asserted (R201, P4) the model performs none. -/
def performAccess (a : Access) (s : State) : Host.Outcome State Fault Refusal :=
  if !a.inWindow then .refused (.outsideWindow a.offset)
  else if s.resetAsserted then .refused (.accessDuringReset a.offset)
  else if !a.wellSized then .fault (.accessError a.offset)
  else
    match a with
    | .read offset _ => .next (s.respond (.value (s.regs.readWindow offset.toNat)))
    | .write offset data => writeWindow offset.toNat (wordOfLanes data) (s.respond .written)

/-- The bus takes an access's fault as the error response, and the block goes on (R181, R185). -/
def answerFault (before : State) (o : Host.Outcome State Fault Refusal) : Host.Outcome State Fault Refusal :=
  match o with
  | .next s => .next s
  | .fault (.accessError offset) => .next (before.raiseAccessError offset)
  | .refused r => .refused r

/-- The reset input driven to a level: asserting it performs the reset, releasing it changes no register (R201). -/
def driveReset (asserted : Bool) (s : State) : State :=
  if asserted then { s.resetRegs with resetAsserted := true } else { s with resetAsserted := false }

/-- One event of the platform, performed completely before the next (R72). -/
def performEvent (e : Event) (s : State) : Host.Outcome State Fault Refusal :=
  match e with
  | .access a => answerFault s (performAccess a s)
  | .resetInput asserted => .next (driveReset asserted s)
  | .powerUp => .next s.resetRegs

/-- The next event of the platform, or no change while none arrives: waiting is the block's only other behaviour
(R196, R202). -/
def performNext (s : State) : Host.Outcome State Fault Refusal :=
  match s.pending with
  | [] => .next s
  | e :: rest => performEvent e { s with pending := rest }

/-- A command word of `nbits` bits, arriving next as `MemWrite(BASE + 0x00, 4, w)` with the reset input released. -/
def commandArrives (s : State) (nbits w : Nat) : State :=
  { s with
    resetAsserted := false
    pending := .access (.write (regOffset .cmd) (lanes 4 (w % 2 ^ nbits))) :: s.pending }

end Sys2Proof.Machine
end

