-- ==== Sys2Proof/Machine/Step.lean ====
section
/-!
DEFINITION. One step of the machine: the next event of the platform, performed to completion (20_memory.md R72,
70_reset_and_hazards.md R205, R210).
-/

namespace Sys2Proof.Machine

/-- One step: the access or reset that arrives next (R21, R72). -/
def step (s : State) : Host.Outcome State Fault Refusal := performNext s

/-- The state in which the next access to arrive writes this word to CMD, so that the next step runs it. The block
fetches nothing (R21, R75): a program is the sequence of accesses its host makes. Log entry 6. -/
def State.withFetchWord (s : State) (nbits w : Nat) : State := commandArrives s nbits w

end Sys2Proof.Machine
end

