-- ==== Sys2Proof/Machine/Assembler.lean ====
section
/-!
DEFINITION. The assembly language of 30_encoding.md R92-R94: from a line of text to the host accesses it stands for.
It says which accesses a program makes; the machine itself never reads text.
-/

namespace Sys2Proof.Machine

/-! ### Command words (R92) -/

/-- The operand part of R92's word column: `D0<<16 | D1<<8 | C`, or the one operand as it stands. -/
def operandBits : List Nat → Nat
  | [d0, d1, c] => (d0 <<< 16) ||| (d1 <<< 8) ||| c
  | [v] => v
  | _ => 0

/-- The pattern column of the mnemonic's row (R88, R92). -/
def patternOf (m : Mnemonic) : Option Word :=
  (opcodeMap.find? fun r => r.mnemonic == m).map Row.pattern

/-- The word a command line stands for; none where the assembler refuses it (R92). -/
def assemble (c : AsmCommand) : Option Word :=
  if c.wellFormed then (patternOf c.mnemonic).map fun p => p ||| BitVec.ofNat 32 (operandBits c.operands)
  else none

/-! ### Lines and their expansions (R92-R94) -/

/-- `crc.span` (R94): `crc.init`, then `crc.byte` for each byte. -/
def expandSpan (bytes : List Nat) : List AsmLine :=
  .command ⟨.crcinit, []⟩ :: bytes.map fun b => .command ⟨.crcbyte, [b]⟩

/-- The expansion of a pseudo-instruction, in order, with nothing else between the lines (R94); a line that is none
stands for itself. -/
def expand : AsmLine → List AsmLine
  | .crcSpan bytes => expandSpan bytes
  | .crcCheck bytes c => expandSpan bytes ++ [.command ⟨.crccmp, [c]⟩]
  | .setupA => [.wr .poly 0x31, .wr .init 0x00]
  | .setupB => [.wr .poly 0x31, .wr .init 0xFF]
  | .frameAT m l c => [.command ⟨.valt, [m, l, c]⟩, .command ⟨.convat, []⟩]
  | .frameAH m l c => [.command ⟨.valh, [m, l, c]⟩, .command ⟨.convah, []⟩]
  | .frameB t0 t1 tc h0 h1 hc =>
    [.command ⟨.valt, [t0, t1, tc]⟩, .command ⟨.valh, [h0, h1, hc]⟩, .command ⟨.convbt, []⟩, .command ⟨.convbh, []⟩]
  | .command c => [.command c]
  | .wr g v => [.wr g v]
  | .rd g => [.rd g]

/-- The access an expanded line stands for: a command is `MemWrite(BASE + 0x00, 4, word)` (R92), `wr` and `rd` are
`MemWrite` and `MemRead` at the register's offset (R93). -/
def lineAccess : AsmLine → Option Access
  | .command c => (assemble c).map fun w => memWrite (Config.base + regOffset .cmd) 4 w.toNat
  | .wr g v => some (memWrite (Config.base + regOffset g) 4 v)
  | .rd g => some (memRead (Config.base + regOffset g) 4)
  | .crcSpan _ | .crcCheck _ _ | .setupA | .setupB | .frameAT _ _ _ | .frameAH _ _ _ | .frameB _ _ _ _ _ _ => none

/-- The accesses a line stands for, in order; none where the assembler refuses the line (R92-R94). -/
def assembleLine (l : AsmLine) : Option (List Access) :=
  if l.wellFormed then (expand l).mapM lineAccess else none

/-! ### The text of a line (R92: lowercase names, operands separated by commas, decimal or 0x numbers) -/

/-- The assembler's name of a command (R92). -/
def spelling : Mnemonic → String
  | .nop => "nop"
  | .crcinit => "crc.init"
  | .crcbyte => "crc.byte"
  | .crccmp => "crc.cmp"
  | .valt => "val.t"
  | .valh => "val.h"
  | .convat => "conv.at"
  | .convah => "conv.ah"
  | .convbt => "conv.bt"
  | .convbh => "conv.bh"
  | .convrat => "convr.at"
  | .convrah => "convr.ah"
  | .convrbt => "convr.bt"
  | .convrbh => "convr.bh"
  | .clrstat => "clrstat"
  | .sreset => "sreset"

/-- The name of a register in `wr` and `rd` (R23, R93). -/
def regSpelling : Reg → String
  | .cmd => "CMD"
  | .ctrl => "CTRL"
  | .poly => "POLY"
  | .init => "INIT"
  | .crc => "CRC"
  | .status => "STATUS"
  | .rawt => "RAWT"
  | .rawh => "RAWH"
  | .rest => "REST"
  | .resh => "RESH"
  | .lastcrc => "LASTCRC"

/-- The value of a digit below 16. -/
def digitValue (ch : Char) : Option Nat :=
  let n := ch.toNat
  if 48 ≤ n && n ≤ 57 then some (n - 48)
  else if 65 ≤ n && n ≤ 70 then some (n - 55)
  else if 97 ≤ n && n ≤ 102 then some (n - 87)
  else none

/-- Digits of a number in the given radix, after `acc`. -/
def parseDigits (radix : Nat) : List Char → Nat → Option Nat
  | [], acc => some acc
  | ch :: rest, acc =>
    match digitValue ch with
    | some d => if d < radix then parseDigits radix rest (acc * radix + d) else none
    | none => none

/-- A number in decimal or `0x` hexadecimal (R92), with at least one digit. -/
def parseNumber : List Char → Option Nat
  | '0' :: 'x' :: ch :: rest => parseDigits 16 (ch :: rest) 0
  | [] => none
  | ch :: rest => parseDigits 10 (ch :: rest) 0

/-- The text without the spaces before and after it. -/
def trimSpaces (cs : List Char) : List Char :=
  ((cs.dropWhile (· == ' ')).reverse.dropWhile (· == ' ')).reverse

/-- The operands between the commas, each without its outer spaces. -/
def splitCommas : List Char → List Char → List (List Char)
  | [], cur => [trimSpaces cur.reverse]
  | ch :: rest, cur => if ch == ',' then trimSpaces cur.reverse :: splitCommas rest [] else splitCommas rest (ch :: cur)

/-- The operands of a line: none where nothing follows the name. -/
def splitOperands (cs : List Char) : List (List Char) :=
  if (trimSpaces cs).isEmpty then [] else splitCommas cs []

/-- All sixteen names (R88). -/
def allMnemonics : List Mnemonic := opcodeMap.map Row.mnemonic

/-- The pseudo-instruction of that name with those operands (R94). -/
def pseudoLine (name : String) (vs : List Nat) : Option AsmLine :=
  match name, vs with
  | "crc.span", bytes => some (.crcSpan bytes)
  | "crc.check", vs => vs.getLast?.map fun c => .crcCheck vs.dropLast c
  | "setup.a", [] => some .setupA
  | "setup.b", [] => some .setupB
  | "frame.a.t", [m, l, c] => some (.frameAT m l c)
  | "frame.a.h", [m, l, c] => some (.frameAH m l c)
  | "frame.b", [t0, t1, tc, h0, h1, hc] => some (.frameB t0 t1 tc h0 h1 hc)
  | _, _ => none

/-- The register of that name (R93: REG is a name of R23). DESIGN CHOICE, log entry 13: a numeric offset, as in the
`rd 0x30` of 95_test_vectors.md, is no name and is refused; safe, since a refused line stands for no access. -/
def regNamed (cs : List Char) : Option Reg := allRegs.find? fun g => regSpelling g == String.ofList cs

/-- The line a text spells: a command (R92), `wr REG, V` or `rd REG` (R93), or a pseudo-instruction (R94). -/
def parseLine (text : String) : Option AsmLine :=
  let cs := trimSpaces text.toList
  let name := String.ofList (cs.takeWhile (· != ' '))
  let ops := splitOperands (cs.dropWhile (· != ' '))
  match name, ops with
  | "wr", [g, v] => (regNamed g).bind fun reg => (parseNumber v).map fun value => .wr reg value
  | "rd", [g] => (regNamed g).map .rd
  | _, _ =>
    (ops.mapM parseNumber).bind fun vs =>
      match allMnemonics.find? fun m => spelling m == name with
      | some m => some (.command ⟨m, vs⟩)
      | none => pseudoLine name vs

/-- The accesses a line of text stands for; none where the assembler refuses it (R92-R94). -/
def assembleText (text : String) : Option (List Access) := (parseLine text).bind assembleLine

end Sys2Proof.Machine
end

