-- ==== Sys2Proof/Safety.lean ====
section
/-!
DEFINITION. The terms in which claims about the machine are put: what an event asks of the block, the invariant of
10_state.md R46, the gated-only discipline of 42_convert.md R155, and the views that separate the two fields (R126).
-/

namespace Sys2Proof.Machine

/-! ### What an event asks -/

/-- The word an event writes to CMD, if it is a 32-bit write there (R24, R66). -/
def Event.commandWord : Event → Option Word
  | .access (.write offset data) => if offset = 0 ∧ data.length = 4 then some (wordOfLanes data) else none
  | _ => none

/-- The command an event carries: the word it writes to CMD, where that is legal (R80). -/
def Event.command (e : Event) : Option Instr :=
  match e.commandWord with
  | some w => (decode w).toOption
  | none => none

/-- The event is an illegal command word's write (R89). -/
def Event.isIllegal (e : Event) : Bool :=
  match e.commandWord with
  | some w => (decode w).toOption.isNone
  | none => false

/-- The event performs the reset of R200: one of the three sources of R201. -/
def Event.isReset (e : Event) : Bool :=
  match e with
  | .resetInput asserted => asserted
  | .powerUp => true
  | .access _ => e.command == some .sreset

/-- The next step performs this event. -/
def State.nextEvent (s : State) : Option Event := s.pending.head?

/-- The next step executes this command. -/
def State.nextCommand (s : State) : Option Instr := s.nextEvent.bind Event.command

/-- The next step performs a reset (R201). -/
def State.nextResets (s : State) : Bool := s.nextEvent.any Event.isReset

/-- The next event is a 32-bit write of `v` to the register at `offset`. -/
def State.nextWrites (s : State) (offset : Nat) (v : Word) : Prop :=
  ∃ data, s.nextEvent = some (.access (.write offset data)) ∧ data.length = 4 ∧ wordOfLanes data = v

/-- The four direct conversions, which no validity gates (R155). -/
def isDirect : Instr → Bool
  | .convrat _ | .convrah _ | .convrbt _ | .convrbh _ => true
  | .nop | .crcinit | .crcbyte _ | .crccmp _ | .valt _ _ _ | .valh _ _ _ | .convat | .convah | .convbt | .convbh
  | .clrstat | .sreset => false

/-! ### Invariants -/

/-- R46, as far as one state shows it, with the range of R147 that a result never leaves. -/
structure Regs.Inv (r : Regs) : Prop where
  /-- TVALID and TCHKERR are never both 1. -/
  temperature_verdict : ¬ (r.tvalid = true ∧ r.tchkerr = true)
  /-- HVALID and HCHKERR are never both 1. -/
  humidity_verdict : ¬ (r.hvalid = true ∧ r.hchkerr = true)
  /-- RTVALID = 1: REST holds a temperature conversion's result. -/
  temperature_result : r.rtvalid = true → ∃ raw, r.rest = toS32 (fAT raw) ∨ r.rest = toS32 (fBT raw)
  /-- RHVALID = 1: RESH holds a humidity conversion's result. -/
  humidity_result : r.rhvalid = true → ∃ raw, r.resh = toS32 (fAH raw) ∨ r.resh = toS32 (fBH raw)
  /-- REST stays between the least and the greatest temperature result. -/
  temperature_range : -45000 ≤ r.rest.toInt ∧ r.rest.toInt ≤ 130000
  /-- RESH stays between the least and the greatest humidity result. -/
  humidity_range : -600 ≤ r.resh.toInt ∧ r.resh.toInt ≤ 11899

/-- While software makes no direct conversion, a valid result is the conversion of the latched, accepted field: "an invalid
checksum must never silently produce a converted value" (R37, R130, R155). -/
structure Regs.Gated (r : Regs) : Prop where
  temperature : r.rtvalid = true →
    r.tvalid = true ∧ (r.rest = toS32 (fAT r.rawt) ∨ r.rest = toS32 (fBT r.rawt))
  humidity : r.rhvalid = true →
    r.hvalid = true ∧ (r.resh = toS32 (fAH r.rawh) ∨ r.resh = toS32 (fBH r.rawh))

/-! ### The two fields apart (R126) -/

/-- The temperature state: RAWT, TVALID, TCHKERR, REST, RTVALID. -/
def Regs.temperaturePart (r : Regs) : Half × Bool × Bool × Word × Bool :=
  (r.rawt, r.tvalid, r.tchkerr, r.rest, r.rtvalid)

/-- The humidity state: RAWH, HVALID, HCHKERR, RESH, RHVALID. -/
def Regs.humidityPart (r : Regs) : Half × Bool × Bool × Word × Bool :=
  (r.rawh, r.hvalid, r.hchkerr, r.resh, r.rhvalid)

/-- The registers with the humidity state, and nothing else, blanked. -/
def Regs.withoutHumidity (r : Regs) : Regs :=
  { r with rawh := 0, hvalid := false, hchkerr := false, resh := 0, rhvalid := false }

/-- The registers with the temperature state, and nothing else, blanked. -/
def Regs.withoutTemperature (r : Regs) : Regs :=
  { r with rawt := 0, tvalid := false, tchkerr := false, rest := 0, rtvalid := false }

/-- The registers with the humidity state, and CONVERR that a refused humidity conversion sets, hidden. -/
def Regs.hideHumidity (r : Regs) : Regs := { r.withoutHumidity with converr := false }

/-- The registers with the temperature state, and CONVERR that a refused temperature conversion sets, hidden. -/
def Regs.hideTemperature (r : Regs) : Regs := { r.withoutTemperature with converr := false }

/-! ### Sequences of commands -/

/-- The commands executed one after another, up to the first that does not answer a next state. -/
def execAll : List Instr → State → Host.Outcome State Fault Refusal
  | [], s => .next s
  | i :: is, s =>
    match exec i s with
    | .next t => execAll is t
    | .fault f => .fault f
    | .refused r => .refused r

end Sys2Proof.Machine
end

