-- ==== Sys2Proof/Certificates/Slice0/Obligations.lean ====
section
/-!
DEFINITION. The statements for the provers, in the order of the spec's files. Each docstring names the rule it formalises.
A statement of a command's result is an equation for `exec`, so it says that the command completes, what it writes and
that it writes nothing else. `pending`, `resetAsserted` and `response` are the model's own fields (log entry 3): they say
which access arrives next and how it was answered.
-/

open Sys2Proof Sys2Proof.Machine

/-! ### The machine as a whole: 10_state.md -/

/-- R46: what every reachable state satisfies is kept by every step, from any state that satisfies it. The bounds on REST and
RESH are those of R147. -/
def Obligations.StepKeepsStateInvariant : Prop :=
  ∀ s t : State, s.regs.Inv → step s = .next t → t.regs.Inv

/-- R155, R130: while the next step is no direct conversion, the gated-only invariant is kept: a valid result is the
conversion of the latched field, and that field is valid. -/
def Obligations.GatedStepsKeepResultsTiedToAcceptedFields : Prop :=
  ∀ s t : State, s.regs.Gated → (∀ i, s.nextCommand = some i → isDirect i = false) → step s = .next t → t.regs.Gated

/-- Both invariants hold right after reset. -/
def Obligations.InvariantsHoldAtReset : Prop := State.reset.regs.Inv ∧ State.reset.regs.Gated

/-- R46, second point: once VALT has given a verdict, TVALID and TCHKERR are never both 0 again before a reset; the same for
VALH's. The first VALT gives the verdict. -/
def Obligations.FieldVerdictLastsUntilReset : Prop :=
  (∀ s t : State, step s = .next t → s.nextResets = false →
    (s.regs.tvalid = true ∨ s.regs.tchkerr = true → t.regs.tvalid = true ∨ t.regs.tchkerr = true) ∧
    (s.regs.hvalid = true ∨ s.regs.hchkerr = true → t.regs.hvalid = true ∨ t.regs.hchkerr = true)) ∧
  (∀ (d0 d1 c : Byte) (s t : State), exec (.valt d0 d1 c) s = .next t → t.regs.tvalid = !t.regs.tchkerr) ∧
  (∀ (d0 d1 c : Byte) (s t : State), exec (.valh d0 d1 c) s = .next t → t.regs.hvalid = !t.regs.hchkerr)

/-- R30: MATCH is the result of the most recent CRCCMP, and besides a reset no step changes it. -/
def Obligations.MatchIsTheLatestComparison : Prop :=
  (∀ (b : Byte) (s t : State), exec (.crccmp b) s = .next t → t.regs.matched = decide (s.regs.crc = b)) ∧
  (∀ s t : State, step s = .next t → s.nextResets = false → (∀ b, s.nextCommand ≠ some (.crccmp b)) →
    t.regs.matched = s.regs.matched) ∧
  State.reset.regs.matched = false

/-- R37 and R38: the sticky bits. CONVERR is set by a refused gated conversion and by nothing else, ILLCMD by an illegal
command word and by nothing else; only CLRSTAT and a reset clear them; both reset to 0. -/
def Obligations.StickyBitsAreSetAndClearedAsNamed : Prop :=
  (∀ s t : State, step s = .next t → s.nextResets = false → s.nextCommand ≠ some .clrstat →
    (t.regs.converr = true ↔ s.regs.converr = true ∨
      (s.resetAsserted = false ∧ s.regs.tvalid = false ∧ (s.nextCommand = some .convat ∨ s.nextCommand = some .convbt)) ∨
      (s.resetAsserted = false ∧ s.regs.hvalid = false ∧ (s.nextCommand = some .convah ∨ s.nextCommand = some .convbh)))) ∧
  (∀ s t : State, step s = .next t → s.nextResets = false → s.nextCommand ≠ some .clrstat →
    (t.regs.illcmd = true ↔ s.regs.illcmd = true ∨ (s.nextEvent.any Event.isIllegal = true))) ∧
  (∀ s t : State, step s = .next t → (s.nextResets = true ∨ s.nextCommand = some .clrstat) →
    t.regs.converr = false ∧ t.regs.illcmd = false) ∧
  State.reset.regs.converr = false ∧ State.reset.regs.illcmd = false

/-- R39 and R40 with R130: a latch takes a new value only from a validation that passed, or from a reset. -/
def Obligations.LatchesHoldOnlyAcceptedFields : Prop :=
  (∀ s t : State, step s = .next t → t.regs.rawt ≠ s.regs.rawt → s.nextResets = true ∨
    ∃ d0 d1 c, s.nextCommand = some (.valt d0 d1 c) ∧ t.regs.rawt = d0 ++ d1 ∧
      (s.regs.chken = false ∨ crc8 s.regs.init s.regs.poly [d0, d1] = c)) ∧
  (∀ s t : State, step s = .next t → t.regs.rawh ≠ s.regs.rawh → s.nextResets = true ∨
    ∃ d0 d1 c, s.nextCommand = some (.valh d0 d1 c) ∧ t.regs.rawh = d0 ++ d1 ∧
      (s.regs.chken = false ∨ crc8 s.regs.init s.regs.poly [d0, d1] = c))

/-! ### Accesses: 20_memory.md, 60_exceptions.md -/

/-- R65: an aligned 32-bit read at `BASE + off` answers the register R23 lays out there, 0 at CMD and at every reserved
offset, and changes no register. -/
def Obligations.AlignedReadAnswersTheRegister : Prop :=
  (∀ (s : State) (rest : List Event) (off : Nat), s.pending = .access (memRead (Config.base + off) 4) :: rest →
    s.resetAsserted = false → off < 64 → off % 4 = 0 →
    step s = .next { s with pending := rest, response := some (.value (s.regs.readWindow off)) }) ∧
  (∀ r : Regs,
    r.readWindow 0x00 = 0#32 ∧
    r.readWindow 0x04 = (if r.chken then 1#32 else 0#32) ∧
    r.readWindow 0x08 = r.poly.zeroExtend 32 ∧
    r.readWindow 0x0C = r.init.zeroExtend 32 ∧
    r.readWindow 0x10 = r.crc.zeroExtend 32 ∧
    (∀ k, (r.readWindow 0x14).getLsbD k =
      ([r.matched, r.tvalid, r.hvalid, r.tchkerr, r.hchkerr, r.rtvalid, r.rhvalid, r.converr, r.illcmd][k]?).getD false) ∧
    r.readWindow 0x18 = r.rawt.zeroExtend 32 ∧
    r.readWindow 0x1C = r.rawh.zeroExtend 32 ∧
    r.readWindow 0x20 = r.rest ∧
    r.readWindow 0x24 = r.resh ∧
    r.readWindow 0x28 = r.lastcrc.zeroExtend 32 ∧
    (∀ off, 0x2C ≤ off → r.readWindow off = 0#32))

/-- R66: an aligned 32-bit write of `v` at `BASE + off` executes `v` at CMD, writes the named field of CTRL, POLY, INIT and CRC
and changes no other register, and is ignored at a read-only register and at a reserved offset. -/
def Obligations.AlignedWriteActsOnOneRegister : Prop :=
  ∀ (s : State) (rest : List Event) (off : Nat) (v : Word),
    s.pending = .access (memWrite (Config.base + off) 4 v.toNat) :: rest → s.resetAsserted = false →
    (off = 0x00 → step s = execWord v { s with pending := rest, response := some .written }) ∧
    (off = 0x04 → step s = .next { s with
      regs := { s.regs with chken := v.getLsbD 0 }, pending := rest, response := some .written }) ∧
    (off = 0x08 → step s = .next { s with
      regs := { s.regs with poly := v.extractLsb' 0 8 }, pending := rest, response := some .written }) ∧
    (off = 0x0C → step s = .next { s with
      regs := { s.regs with init := v.extractLsb' 0 8 }, pending := rest, response := some .written }) ∧
    (off = 0x10 → step s = .next { s with
      regs := { s.regs with crc := v.extractLsb' 0 8 }, pending := rest, response := some .written }) ∧
    (off % 4 = 0 → 0x14 ≤ off → off < 64 → step s = .next { s with pending := rest, response := some .written })

/-- R63, R64 and R181: an access inside the window that is not 4 bytes long, or not 4-byte aligned, is answered with the bus
error response, and no register changes. -/
def Obligations.MalformedAccessIsAnsweredWithAccessError : Prop :=
  ∀ (s : State) (rest : List Event) (off n v : Nat), off < 64 → s.resetAsserted = false → (n ≠ 4 ∨ off % 4 ≠ 0) →
    (s.pending = .access (memRead (Config.base + off) n) :: rest →
      step s = .next { s with pending := rest, response := some (.accessError off) }) ∧
    (s.pending = .access (memWrite (Config.base + off) n v) :: rest →
      step s = .next { s with pending := rest, response := some (.accessError off) })

/-- R70 (P3) and R201 (P4): the model has no step for an access outside `BASE .. BASE + 0x3F`, nor for one inside it while the
reset input is asserted. -/
def Obligations.NoStepOutsideTheWindowOrDuringReset : Prop :=
  (∀ (s : State) (rest : List Event) (addr n v : Nat), addr < Config.base ∨ Config.base + 64 ≤ addr →
    (s.pending = .access (memRead addr n) :: rest →
      step s = .refused (.outsideWindow ((addr : Int) - Config.base))) ∧
    (s.pending = .access (memWrite addr n v) :: rest →
      step s = .refused (.outsideWindow ((addr : Int) - Config.base)))) ∧
  (∀ (s : State) (rest : List Event) (a : Access), s.resetAsserted = true → 0 ≤ a.offset → a.offset < 64 →
    s.pending = .access a :: rest → step s = .refused (.accessDuringReset a.offset))

/-- R185, R21: a step has a next state whenever the next event is a reset input or a power-up, an access inside the window
with the reset input released, or none; and none ends in a fault. Two clauses are the model's readings: that the machine
answers the AccessError of R63, R64 and R181 and goes on, so that no step is a fault (log entry 4), and that a step with
nothing arriving is a step (log entry 7). -/
def Obligations.EveryAcceptedEventCompletes : Prop :=
  (∀ (s : State) (f : Fault), step s ≠ .fault f) ∧
  (∀ s : State, (∀ a, s.nextEvent = some (.access a) → 0 ≤ a.offset ∧ a.offset < 64 ∧ s.resetAsserted = false) →
    ∃ t, step s = .next t ∧ t.pending = s.pending.tail)

/-- R68: no read changes a register; a second equal write to CTRL, POLY, INIT or CRC changes no register; two CRCBYTE commands
shift two bytes, and somewhere that differs from one; a second VALT replaces the outcome of the first; a write to a read-only
register or a reserved offset changes no register. -/
def Obligations.ReadsAndConfigurationWritesAreIdempotent : Prop :=
  (∀ (s t : State) (offset : Int) (n : Nat), s.nextEvent = some (.access (.read offset n)) → step s = .next t →
    t.regs = s.regs) ∧
  (∀ (s t u : State) (rest : List Event) (off : Nat) (v : Word), off ∈ [0x04, 0x08, 0x0C, 0x10] →
    s.pending = .access (memWrite (Config.base + off) 4 v.toNat) ::
      .access (memWrite (Config.base + off) 4 v.toNat) :: rest →
    step s = .next t → step t = .next u → u.regs = t.regs) ∧
  (∀ (b : Byte) (s : State), execAll [.crcbyte b, .crcbyte b] s =
    .next { s with regs := { s.regs with crc := crc8 s.regs.crc s.regs.poly [b, b] } }) ∧
  (∃ (b : Byte) (s : State), execAll [.crcbyte b, .crcbyte b] s ≠ execAll [.crcbyte b] s) ∧
  (∀ (a0 a1 a b0 b1 b : Byte) (s t u : State), execAll [.valt a0 a1 a, .valt b0 b1 b] s = .next t →
    exec (.valt b0 b1 b) s = .next u →
    t.regs.tvalid = u.regs.tvalid ∧ t.regs.tchkerr = u.regs.tchkerr ∧ t.regs.rtvalid = u.regs.rtvalid ∧
    t.regs.lastcrc = u.regs.lastcrc ∧ (t.regs.tvalid = true → t.regs.rawt = b0 ++ b1)) ∧
  (∀ (s t : State) (rest : List Event) (off : Nat) (v : Word), off % 4 = 0 → 0x14 ≤ off → off < 64 →
    s.pending = .access (memWrite (Config.base + off) 4 v.toNat) :: rest → step s = .next t → t.regs = s.regs)

/-- R66, R80: when the bytes of a 32-bit write to CMD decode to an instruction, a step executes exactly that instruction, on the
state in which the write has left the queue and is answered as completed. -/
def Obligations.StepRunsTheDecodedCommand : Prop :=
  ∀ (s : State) (data : List Byte) (rest : List Event) (i : Instr),
    s.pending = .access (.write 0 data) :: rest → s.resetAsserted = false → data.length = 4 →
    decodeBytes data = .ok (i, []) → step s = exec i { s with pending := rest, response := some .written }

/-! ### Encoding: 30_encoding.md -/

/-- R80: the word matches at most one row of the opcode map; if one matches, its command is performed; if none, ILLCMD is set
and nothing else. -/
def Obligations.CommandWordPerformsItsUniqueRow : Prop :=
  (∀ (w : Word) (r r' : Row), r ∈ opcodeMap → r' ∈ opcodeMap → w &&& r.mask = r.pattern → w &&& r'.mask = r'.pattern →
    r = r') ∧
  (∀ (w : Word) (r : Row) (s : State), r ∈ opcodeMap → w &&& r.mask = r.pattern →
    execWord w s = exec (r.mnemonic.instr w) s) ∧
  (∀ (w : Word) (s : State), (∀ r ∈ opcodeMap, w &&& r.mask ≠ r.pattern) →
    execWord w s = .next { s with regs := { s.regs with illcmd := true } })

/-- R83-R88: every instruction, with every operand, is what the decoder reads from its own word, as a word and as byte lanes. -/
def Obligations.DecodeOfEncodeIsTheInstruction : Prop :=
  ∀ (i : Instr) (rest : List Byte), decode (encode i) = .ok i ∧
    decodeBytes (wordLanes (encode i) ++ rest) = .ok (i, rest)

/-- R83-R88: a legal word is the word of the instruction it decodes to, so no bit of it is dropped. -/
def Obligations.EncodeOfDecodeIsTheWord : Prop :=
  ∀ (w : Word) (i : Instr), decode w = .ok i → encode i = w

/-- R89: the illegal words are exactly the four kinds listed; writing one to CMD sets ILLCMD, changes nothing else, and completes
normally. -/
def Obligations.IllegalWordsAreTheFourKindsAndSetIllcmd : Prop :=
  (∀ w : Word, (∃ e, decode w = .error e) ↔
    (opField w ∉ [0x00#8, 0x01#8, 0x02#8, 0x03#8, 0x10#8, 0x11#8, 0x20#8, 0x21#8, 0x22#8, 0x23#8, 0x30#8, 0x31#8, 0x32#8,
      0x33#8, 0x40#8, 0xF0#8]) ∨
    (opField w ∈ [0x00#8, 0x01#8, 0x20#8, 0x21#8, 0x22#8, 0x23#8, 0x40#8, 0xF0#8] ∧ w.extractLsb' 0 24 ≠ 0#24) ∨
    (opField w ∈ [0x02#8, 0x03#8] ∧ w.extractLsb' 8 16 ≠ 0#16) ∨
    (opField w ∈ [0x30#8, 0x31#8, 0x32#8, 0x33#8] ∧ w.extractLsb' 16 8 ≠ 0#8)) ∧
  (∀ (s : State) (rest : List Event) (w : Word) (e : DecodeError),
    s.pending = .access (memWrite (Config.base + 0x00) 4 w.toNat) :: rest → s.resetAsserted = false →
    decode w = .error e →
    step s = .next { s with regs := { s.regs with illcmd := true }, pending := rest, response := some .written })

/-- R90: every opcode value set aside for future use has no meaning, whatever the operand bits: its words fall under R89. -/
def Obligations.SetAsideOpcodesHaveNoMeaning : Prop :=
  ∀ w : Word,
    (0x04 ≤ (opField w).toNat ∧ (opField w).toNat ≤ 0x0F) ∨ (0x12 ≤ (opField w).toNat ∧ (opField w).toNat ≤ 0x1F) ∨
    (0x24 ≤ (opField w).toNat ∧ (opField w).toNat ≤ 0x2F) ∨ (0x34 ≤ (opField w).toNat ∧ (opField w).toNat ≤ 0x3F) ∨
    (0x41 ≤ (opField w).toNat ∧ (opField w).toNat ≤ 0xEF) ∨ 0xF1 ≤ (opField w).toNat →
    decode w = .error (.unlistedOpcode (opField w)) ∧
      ∀ s : State, execWord w s = .next { s with regs := { s.regs with illcmd := true } }

/-- R91: the conversion opcodes are {0b001, G, 0b00, F, Q}. -/
def Obligations.ConversionOpcodesShareOneStructure : Prop :=
  ∀ raw : Half,
    let op := fun (g f q : Bool) => 0b001#3 ++ BitVec.ofBool g ++ 0b00#2 ++ BitVec.ofBool f ++ BitVec.ofBool q
    opField (encode .convat) = op false false false ∧ opField (encode .convah) = op false false true ∧
    opField (encode .convbt) = op false true false ∧ opField (encode .convbh) = op false true true ∧
    opField (encode (.convrat raw)) = op true false false ∧ opField (encode (.convrah raw)) = op true false true ∧
    opField (encode (.convrbt raw)) = op true true false ∧ opField (encode (.convrbh raw)) = op true true true

/-- R92: the assembler's word for every instruction is the encoder's; a command line has no word exactly when it names no
instruction, that is when an operand exceeds its field or their number is wrong; and the well-formed lines are those that
name one. -/
def Obligations.AssemblerWordIsTheEncoding : Prop :=
  (∀ i : Instr, assemble i.toAsm = some (encode i)) ∧
  (∀ c : AsmCommand, assemble c = none ↔ ∀ i : Instr, c ≠ i.toAsm) ∧
  (∀ c : AsmCommand, c.wellFormed = true ↔ ∃ i : Instr, c = i.toAsm)

/-- R94: each pseudo-instruction stands for exactly the listed accesses, in order. -/
def Obligations.PseudoInstructionsExpandExactly : Prop :=
  let cmd := fun i : Instr => memWrite (Config.base + 0x00) 4 (encode i).toNat
  let wr := fun (off v : Nat) => memWrite (Config.base + off) 4 v
  (∀ (b : Byte) (bs : List Byte), assembleLine (.crcSpan ((b :: bs).map BitVec.toNat)) =
    some (cmd .crcinit :: (b :: bs).map fun x => cmd (.crcbyte x))) ∧
  (∀ (b : Byte) (bs : List Byte) (c : Byte), assembleLine (.crcCheck ((b :: bs).map BitVec.toNat) c.toNat) =
    some ((cmd .crcinit :: (b :: bs).map fun x => cmd (.crcbyte x)) ++ [cmd (.crccmp c)])) ∧
  assembleLine .setupA = some [wr 0x08 0x31, wr 0x0C 0x00] ∧
  assembleLine .setupB = some [wr 0x08 0x31, wr 0x0C 0xFF] ∧
  (∀ m l c : Byte, assembleLine (.frameAT m.toNat l.toNat c.toNat) = some [cmd (.valt m l c), cmd .convat]) ∧
  (∀ m l c : Byte, assembleLine (.frameAH m.toNat l.toNat c.toNat) = some [cmd (.valh m l c), cmd .convah]) ∧
  (∀ t0 t1 tc h0 h1 hc : Byte,
    assembleLine (.frameB t0.toNat t1.toNat tc.toNat h0.toNat h1.toNat hc.toNat) =
      some [cmd (.valt t0 t1 tc), cmd (.valh h0 h1 hc), cmd .convbt, cmd .convbh])

/-- R95: the worked encodings, and the two worked illegal words. -/
def Obligations.WorkedEncodingsDecodeAsWritten : Prop :=
  encode (.valt 0x66#8 0x00#8 0x0F#8) = 0x1066000F#32 ∧ decode 0x1066000F#32 = .ok (.valt 0x66#8 0x00#8 0x0F#8) ∧
  encode (.crcbyte 0xBE#8) = 0x020000BE#32 ∧ decode 0x020000BE#32 = .ok (.crcbyte 0xBE#8) ∧
  encode (.convrbt 0xFFFF#16) = 0x3200FFFF#32 ∧ decode 0x3200FFFF#32 = .ok (.convrbt 0xFFFF#16) ∧
  decode 0x02000100#32 = .error (.reservedBitSet 0x02#8) ∧ decode 0x05000000#32 = .error (.unlistedOpcode 0x05#8)

/-! ### The CRC-8 engine: 40_crc.md -/

/-- R100: XOR the byte in, then 8 times test bit 7, shift left, and XOR the polynomial if the tested bit was 1. -/
def Obligations.CrcStepIsEightConditionalShifts : Prop :=
  ∀ s b p : Byte, crc8Step s b p =
    (fun x : Byte => if x.getLsbD 7 then (x <<< 1) ^^^ p else x <<< 1)^[8] (s ^^^ b)

/-- The polynomial over GF(2) whose coefficient of x^i is bit `i` (R101). -/
noncomputable def Sys2Proof.bitPolynomial {n : Nat} (v : BitVec n) : Polynomial (ZMod 2) :=
  ∑ i ∈ Finset.range n, if v.getLsbD i then Polynomial.X ^ i else 0

/-- The polynomial of a byte sequence, the first byte in the most significant position. -/
noncomputable def Sys2Proof.bytesPolynomial : List Byte → Polynomial (ZMod 2)
  | [] => 0
  | b :: data => Polynomial.X ^ (8 * data.length) * bitPolynomial b + bytesPolynomial data

/-- R101 with R102: reading POLY as x^8 plus its eight coefficients, the span function leaves the remainder of
`init * x^(8n) + data * x^8` by that polynomial. -/
def Obligations.CrcIsThePolynomialRemainder : Prop :=
  (∀ (init p : Byte) (data : List Byte), (Polynomial.X ^ 8 + bitPolynomial p) ∣
    bitPolynomial (crc8 init p data) -
      (Polynomial.X ^ (8 * data.length) * bitPolynomial init + Polynomial.X ^ 8 * bytesPolynomial data)) ∧
  (Polynomial.X ^ 8 + bitPolynomial (0x31#8 : Byte) : Polynomial (ZMod 2)) =
    Polynomial.X ^ 8 + Polynomial.X ^ 5 + Polynomial.X ^ 4 + 1

/-- R103: the four laws of `crc8`, for any initial value, polynomial and bytes. -/
def Obligations.CrcLaws : Prop :=
  (∀ (init p : Byte) (d1 d2 : List Byte), crc8 init p (d1 ++ d2) = crc8 (crc8 init p d1) p d2) ∧
  (∀ s p : Byte, crc8Step s s p = 0#8) ∧
  (∀ (init p : Byte) (d : List Byte), crc8 init p (d ++ [crc8 init p d]) = 0#8) ∧
  (∀ p : Byte, crc8Step 0#8 0#8 p = 0#8) ∧
  (∀ s b : Byte, crc8Step s b 0x00#8 = 0#8)

/-- R105: CRCINIT. STATE takes INIT as it stands, nothing else changes; the word is 0x01000000, and every other word with OP
0x01 is illegal; a later write to INIT leaves STATE. -/
def Obligations.CrcinitLoadsTheInitialValue : Prop :=
  (∀ s : State, exec .crcinit s = .next { s with regs := { s.regs with crc := s.regs.init } }) ∧
  decode 0x01000000#32 = .ok .crcinit ∧ encode .crcinit = 0x01000000#32 ∧
  (∀ w : Word, opField w = 0x01#8 → w.extractLsb' 0 24 ≠ 0#24 → decode w = .error (.reservedBitSet 0x01#8)) ∧
  (∀ (r : Regs) (v : Word), (r.writeReg (some .init) v).crc = r.crc)

/-- R106: CRCBYTE. STATE takes the step of STATE, B and POLY, nothing else changes; the word, the illegal words and the corner
cases of the rule, and the worked trace. -/
def Obligations.CrcbyteShiftsOneByte : Prop :=
  (∀ (b : Byte) (s : State), exec (.crcbyte b) s =
    .next { s with regs := { s.regs with crc := crc8Step s.regs.crc b s.regs.poly } }) ∧
  (∀ b : Byte, encode (.crcbyte b) = 0x02000000#32 ||| b.zeroExtend 32 ∧ decode (encode (.crcbyte b)) = .ok (.crcbyte b)) ∧
  (∀ w : Word, opField w = 0x02#8 → w.extractLsb' 8 16 ≠ 0#16 → decode w = .error (.reservedBitSet 0x02#8)) ∧
  (∀ s t : State, exec (.crcbyte s.regs.crc) s = .next t → t.regs.crc = 0#8) ∧
  (∀ (b : Byte) (s t : State), s.regs.poly = 0x00#8 → exec (.crcbyte b) s = .next t → t.regs.crc = 0#8) ∧
  (List.range 8).map (fun k => crcShifts 0x31#8 (k + 1) (0x00#8 ^^^ 0x66#8)) =
    [0xCC#8, 0xA9#8, 0x63#8, 0xC6#8, 0xBD#8, 0x4B#8, 0x96#8, 0x1D#8] ∧
  crc8Step 0x00#8 0x66#8 0x31#8 = 0x1D#8

/-- R107: CRCCMP. MATCH says whether STATE equals B, whatever CHKEN is, and nothing else changes; a byte that differs in one bit
gives 0. -/
def Obligations.CrccmpComparesWithTheByte : Prop :=
  (∀ (b : Byte) (s : State), exec (.crccmp b) s =
    .next { s with regs := { s.regs with matched := decide (s.regs.crc = b) } }) ∧
  (∀ b : Byte, encode (.crccmp b) = 0x03000000#32 ||| b.zeroExtend 32 ∧ decode (encode (.crccmp b)) = .ok (.crccmp b)) ∧
  (∀ (k : Nat) (s t : State), k < 8 → exec (.crccmp (s.regs.crc ^^^ (1#8 <<< k))) s = .next t → t.regs.matched = false) ∧
  (∀ s t : State, s.regs.crc = 0x0F#8 →
    (exec (.crccmp 0x0F#8) s = .next t → t.regs.matched = true) ∧
    (exec (.crccmp 0x0E#8) s = .next t → t.regs.matched = false))

/-- R108: a host write of CRC sets STATE to bits 7:0 of the value; besides it only CRCINIT, CRCBYTE and a reset change STATE; reading CRC
returns STATE. -/
def Obligations.RunningCrcHasFourWriters : Prop :=
  (∀ s t : State, step s = .next t → t.regs.crc ≠ s.regs.crc →
    s.nextResets = true ∨
    (s.nextCommand = some .crcinit ∧ t.regs.crc = s.regs.init) ∨
    (∃ b, s.nextCommand = some (.crcbyte b) ∧ t.regs.crc = crc8Step s.regs.crc b s.regs.poly) ∨
    (∃ v, s.nextWrites 0x10 v ∧ t.regs.crc = v.extractLsb' 0 8)) ∧
  (∀ (s : State) (rest : List Event) (v : Word), s.pending = .access (memWrite (Config.base + 0x10) 4 v.toNat) :: rest →
    s.resetAsserted = false → ∃ t, step s = .next t ∧ t.regs.crc = v.extractLsb' 0 8) ∧
  (∀ r : Regs, r.readWindow 0x10 = r.crc.zeroExtend 32)

/-- R109 with R103 (a): CRCINIT and any number of CRCBYTE commands leave the span function's value in STATE and change nothing else;
a CRCCMP with that value then sets MATCH. -/
def Obligations.RunningEngineComputesTheSpanCrc : Prop :=
  ∀ (data : List Byte) (s : State),
    execAll (.crcinit :: data.map .crcbyte) s =
      .next { s with regs := { s.regs with crc := crc8 s.regs.init s.regs.poly data } } ∧
    execAll (.crcinit :: data.map .crcbyte ++ [.crccmp (crc8 s.regs.init s.regs.poly data)]) s =
      .next { s with regs := { s.regs with crc := crc8 s.regs.init s.regs.poly data, matched := true } }

/-! ### Field validation: 41_validate.md -/

/-- R124: VALT. LASTCRC takes the computed CRC; a field that passes is latched and TVALID is 1, TCHKERR 0; one that fails leaves
RAWT, and TVALID is 0, TCHKERR 1; RTVALID is 0; nothing else changes. Every word with OP 0x10 is a VALT. -/
def Obligations.ValtJudgesTheTemperatureField : Prop :=
  (∀ (d0 d1 c : Byte) (s : State),
    (s.regs.chken = false ∨ crc8 s.regs.init s.regs.poly [d0, d1] = c → exec (.valt d0 d1 c) s =
      .next { s with regs := { s.regs with
        lastcrc := crc8 s.regs.init s.regs.poly [d0, d1], rawt := d0 ++ d1, tvalid := true, tchkerr := false,
        rtvalid := false } }) ∧
    (¬ (s.regs.chken = false ∨ crc8 s.regs.init s.regs.poly [d0, d1] = c) → exec (.valt d0 d1 c) s =
      .next { s with regs := { s.regs with
        lastcrc := crc8 s.regs.init s.regs.poly [d0, d1], tvalid := false, tchkerr := true, rtvalid := false } })) ∧
  (∀ w : Word, opField w = 0x10#8 →
    decode w = .ok (.valt (w.extractLsb' 16 8) (w.extractLsb' 8 8) (w.extractLsb' 0 8))) ∧
  (∀ d0 d1 c : Byte, encode (.valt d0 d1 c) =
    0x10000000#32 ||| d0.zeroExtend 32 <<< 16 ||| d1.zeroExtend 32 <<< 8 ||| c.zeroExtend 32) ∧
  (∀ p : Byte, crc8 0x00#8 p [0x00#8, 0x00#8] = 0x00#8) ∧
  crc8 0x00#8 0x31#8 [0x66#8, 0x00#8] = 0x0F#8 ∧ (0x66#8 ++ 0x00#8 : Half) = 0x6600#16

/-- R125: VALH, the same over the humidity state. Every word with OP 0x11 is a VALH. -/
def Obligations.ValhJudgesTheHumidityField : Prop :=
  (∀ (d0 d1 c : Byte) (s : State),
    (s.regs.chken = false ∨ crc8 s.regs.init s.regs.poly [d0, d1] = c → exec (.valh d0 d1 c) s =
      .next { s with regs := { s.regs with
        lastcrc := crc8 s.regs.init s.regs.poly [d0, d1], rawh := d0 ++ d1, hvalid := true, hchkerr := false,
        rhvalid := false } }) ∧
    (¬ (s.regs.chken = false ∨ crc8 s.regs.init s.regs.poly [d0, d1] = c) → exec (.valh d0 d1 c) s =
      .next { s with regs := { s.regs with
        lastcrc := crc8 s.regs.init s.regs.poly [d0, d1], hvalid := false, hchkerr := true, rhvalid := false } })) ∧
  (∀ w : Word, opField w = 0x11#8 →
    decode w = .ok (.valh (w.extractLsb' 16 8) (w.extractLsb' 8 8) (w.extractLsb' 0 8))) ∧
  (∀ d0 d1 c : Byte, encode (.valh d0 d1 c) =
    0x11000000#32 ||| d0.zeroExtend 32 <<< 16 ||| d1.zeroExtend 32 <<< 8 ||| c.zeroExtend 32) ∧
  (∀ p : Byte, crc8 0x00#8 p [0x00#8, 0x00#8] = 0x00#8) ∧
  crc8 0xFF#8 0x31#8 [0x80#8, 0x00#8] = 0xA2#8 ∧ (0x80#8 ++ 0x00#8 : Half) = 0x8000#16

/-- R123: with CHKEN = 0 every field is accepted, LASTCRC is still the computed CRC, and no checksum error is reported; with CHKEN = 1
equality of the computed CRC and the checksum byte decides. -/
def Obligations.ChecksumModeDecidesWhetherTheFieldIsCompared : Prop :=
  ∀ (d0 d1 c : Byte) (s t : State),
    (s.regs.chken = false → exec (.valt d0 d1 c) s = .next t → t.regs.tvalid = true ∧ t.regs.tchkerr = false ∧
      t.regs.rawt = d0 ++ d1 ∧ t.regs.lastcrc = crc8 s.regs.init s.regs.poly [d0, d1]) ∧
    (s.regs.chken = false → exec (.valh d0 d1 c) s = .next t → t.regs.hvalid = true ∧ t.regs.hchkerr = false ∧
      t.regs.rawh = d0 ++ d1 ∧ t.regs.lastcrc = crc8 s.regs.init s.regs.poly [d0, d1]) ∧
    (s.regs.chken = true → exec (.valt d0 d1 c) s = .next t →
      t.regs.tvalid = decide (crc8 s.regs.init s.regs.poly [d0, d1] = c) ∧ t.regs.tchkerr = !t.regs.tvalid) ∧
    (s.regs.chken = true → exec (.valh d0 d1 c) s = .next t →
      t.regs.hvalid = decide (crc8 s.regs.init s.regs.poly [d0, d1] = c) ∧ t.regs.hchkerr = !t.regs.hvalid)

/-- R129 with R121: with CHKEN = 1 exactly one checksum byte passes, the field's CRC; every single-bit flip of it fails. -/
def Obligations.ExactlyOneChecksumBytePasses : Prop :=
  ∀ (d0 d1 : Byte) (s : State), s.regs.chken = true →
    (∀ (c : Byte) (t : State),
      (exec (.valt d0 d1 c) s = .next t → (t.regs.tvalid = true ↔ c = crc8 s.regs.init s.regs.poly [d0, d1])) ∧
      (exec (.valh d0 d1 c) s = .next t → (t.regs.hvalid = true ↔ c = crc8 s.regs.init s.regs.poly [d0, d1]))) ∧
    (∀ (k : Nat) (t : State), k < 8 →
      (exec (.valt d0 d1 (crc8 s.regs.init s.regs.poly [d0, d1] ^^^ (1#8 <<< k))) s = .next t →
        t.regs.tvalid = false ∧ t.regs.tchkerr = true) ∧
      (exec (.valh d0 d1 (crc8 s.regs.init s.regs.poly [d0, d1] ^^^ (1#8 <<< k))) s = .next t →
        t.regs.hvalid = false ∧ t.regs.hchkerr = true))

/-- R126: a VALT leaves the humidity state and does not read it, and a VALH leaves the temperature state and does not read it.
From two states that differ in the other field's five values alone, the validation gives states that differ there alone:
every other register, CONVERR among them, is the same. -/
def Obligations.ValidationsAreIndependent : Prop :=
  ∀ (d0 d1 c : Byte) (s u t v : State),
    (exec (.valt d0 d1 c) s = .next t → t.regs.humidityPart = s.regs.humidityPart) ∧
    (exec (.valh d0 d1 c) s = .next t → t.regs.temperaturePart = s.regs.temperaturePart) ∧
    (s.regs.withoutHumidity = u.regs.withoutHumidity → exec (.valt d0 d1 c) s = .next t → exec (.valt d0 d1 c) u = .next v →
      t.regs.withoutHumidity = v.regs.withoutHumidity) ∧
    (s.regs.withoutTemperature = u.regs.withoutTemperature → exec (.valh d0 d1 c) s = .next t →
      exec (.valh d0 d1 c) u = .next v → t.regs.withoutTemperature = v.regs.withoutTemperature)

/-- R126 for the whole machine: no step lets the humidity state change the temperature state, or anything but itself and CONVERR;
and the same with the two fields exchanged. -/
def Obligations.NoStepCarriesOneFieldIntoTheOther : Prop :=
  ∀ s u t v : State, s.pending = u.pending → s.resetAsserted = u.resetAsserted → step s = .next t → step u = .next v →
    (s.regs.hideHumidity = u.regs.hideHumidity → t.regs.hideHumidity = v.regs.hideHumidity) ∧
    (s.regs.hideTemperature = u.regs.hideTemperature → t.regs.hideTemperature = v.regs.hideTemperature)

/-- R127: the order of a frame's two validations changes nothing but LASTCRC, which holds the later one's CRC (log entry 9); when
temperature passes and humidity fails, TVALID = 1 and HCHKERR = 1. -/
def Obligations.ValidationOrderChangesOnlyLastcrc : Prop :=
  ∀ (f0 f1 f2 f3 f4 f5 : Byte) (s t u : State),
    execAll [.valt f0 f1 f2, .valh f3 f4 f5] s = .next t → execAll [.valh f3 f4 f5, .valt f0 f1 f2] s = .next u →
    { t.regs with lastcrc := 0#8 } = { u.regs with lastcrc := 0#8 } ∧
    t.regs.lastcrc = crc8 s.regs.init s.regs.poly [f3, f4] ∧ u.regs.lastcrc = crc8 s.regs.init s.regs.poly [f0, f1] ∧
    (s.regs.chken = true → crc8 s.regs.init s.regs.poly [f0, f1] = f2 → crc8 s.regs.init s.regs.poly [f3, f4] ≠ f5 →
      t.regs.tvalid = true ∧ t.regs.hchkerr = true)

/-! ### The converter: 42_convert.md -/

/-- R141: family A ignores bits 1:0 of the raw value; converting 0x0003 equals converting 0x0000; family B does not mask. -/
def Obligations.FamilyAMasksTheStatusBits : Prop :=
  (∀ raw : Half, fAT raw = fAT (raw &&& 0xFFFC#16) ∧ fAH raw = fAH (raw &&& 0xFFFC#16)) ∧
  fAT 0x0003#16 = fAT 0x0000#16 ∧ fAH 0x0003#16 = fAH 0x0000#16 ∧
  (∃ raw : Half, fBT raw ≠ fBT (raw &&& 0xFFFC#16)) ∧ (∃ raw : Half, fBH raw ≠ fBH (raw &&& 0xFFFC#16))

/-- R142 and R143: the family A functions are the given integer formulas, and the floor of 100 times the source's real formulas. -/
def Obligations.FamilyAIsTheFloorOfTheReference : Prop :=
  ∀ raw : Half,
    fAT raw = ((raw &&& 0xFFFC#16).toNat * 17572 : Int) / 65536 - 4685 ∧
    fAT raw = ⌊(100 : ℚ) * ((raw &&& 0xFFFC#16).toNat / 65536 * 175.72 - 46.85)⌋ ∧
    fAH raw = ((raw &&& 0xFFFC#16).toNat * 12500 : Int) / 65536 - 600 ∧
    fAH raw = ⌊(100 : ℚ) * ((raw &&& 0xFFFC#16).toNat / 65536 * 125 - 6)⌋

/-- R144 and R145: the family B functions are the source's integer formulas, with the product at full precision and the division
before the addition. -/
def Obligations.FamilyBIsTheIntegerFormula : Prop :=
  ∀ raw : Half,
    fBT raw = -45000 + ⌊((raw.toNat : ℚ) * 175000) / 65535⌋ ∧ fBH raw = ⌊((raw.toNat : ℚ) * 10000) / 65535⌋

/-- R147: the boundary values, and every other value between them. -/
def Obligations.ConversionRangesAndBoundaries : Prop :=
  (fAT 0#16 = -4685 ∧ fAT 0xFFFF#16 = 12885 ∧ fAH 0#16 = -600 ∧ fAH 0xFFFF#16 = 11899 ∧
    fBT 0#16 = -45000 ∧ fBT 0xFFFF#16 = 130000 ∧ fBH 0#16 = 0 ∧ fBH 0xFFFF#16 = 10000) ∧
  (∀ raw : Half, -4685 ≤ fAT raw ∧ fAT raw ≤ 12885 ∧ -600 ≤ fAH raw ∧ fAH raw ≤ 11899 ∧
    -45000 ≤ fBT raw ∧ fBT raw ≤ 130000 ∧ 0 ≤ fBH raw ∧ fBH raw ≤ 10000)

/-- R148: each function is monotone non-decreasing; family A lies less than one unit of the last place below its reference; family B
equals the source's integer formula exactly. -/
def Obligations.ConversionsAreMonotoneAndClose : Prop :=
  (∀ a b : Half, a.toNat ≤ b.toNat → fAT a ≤ fAT b ∧ fAH a ≤ fAH b ∧ fBT a ≤ fBT b ∧ fBH a ≤ fBH b) ∧
  (∀ raw : Half,
    0 ≤ (100 : ℚ) * ((raw &&& 0xFFFC#16).toNat / 65536 * 175.72 - 46.85) - fAT raw ∧
    (100 : ℚ) * ((raw &&& 0xFFFC#16).toNat / 65536 * 175.72 - 46.85) - fAT raw < 1 ∧
    0 ≤ (100 : ℚ) * ((raw &&& 0xFFFC#16).toNat / 65536 * 125 - 6) - fAH raw ∧
    (100 : ℚ) * ((raw &&& 0xFFFC#16).toNat / 65536 * 125 - 6) - fAH raw < 1 ∧
    fBT raw = -45000 + ((raw.toNat * 175000 / 65535 : Nat) : Int) ∧ fBH raw = ((raw.toNat * 10000 / 65535 : Nat) : Int))

/-- R160: a result's register pattern, read as two's complement, is the result, and bit 31 is set exactly when it is negative. -/
def Obligations.ResultPatternsReadBackAsTheResult : Prop :=
  ∀ raw : Half, ∀ f ∈ [fAT, fAH, fBT, fBH],
    -45000 ≤ f raw ∧ f raw ≤ 130000 ∧ (toS32 (f raw)).toInt = f raw ∧
    ((toS32 (f raw)).getLsbD 31 = true ↔ f raw < 0)

/-- R151: CONVAT. A valid temperature latch is converted by fAT into REST and RTVALID is 1; else RTVALID is 0 and CONVERR 1; nothing
else changes, and repeating it changes nothing more. -/
def Obligations.ConvatConvertsOrRefuses : Prop :=
  (∀ s : State,
    (s.regs.tvalid = true → exec .convat s =
      .next { s with regs := { s.regs with rest := BitVec.ofInt 32 (fAT s.regs.rawt), rtvalid := true } }) ∧
    (s.regs.tvalid = false → exec .convat s =
      .next { s with regs := { s.regs with rtvalid := false, converr := true } })) ∧
  encode .convat = 0x20000000#32 ∧ decode 0x20000000#32 = .ok .convat ∧
  (∀ s t : State, exec .convat s = .next t → exec .convat t = .next t) ∧
  (∀ raw : Half, fAT raw = fAT (raw &&& 0xFFFC#16)) ∧
  State.reset.regs.tvalid = false ∧ fAT 0x6600#16 = 2316

/-- R152: CONVAH, over the humidity latch with fAH; the result is negative exactly when RAWH <= 0x0C4B and above 10000 exactly when
RAWH >= 0xD91C. -/
def Obligations.ConvahConvertsOrRefuses : Prop :=
  (∀ s : State,
    (s.regs.hvalid = true → exec .convah s =
      .next { s with regs := { s.regs with resh := BitVec.ofInt 32 (fAH s.regs.rawh), rhvalid := true } }) ∧
    (s.regs.hvalid = false → exec .convah s =
      .next { s with regs := { s.regs with rhvalid := false, converr := true } })) ∧
  encode .convah = 0x21000000#32 ∧ decode 0x21000000#32 = .ok .convah ∧
  (∀ s t : State, exec .convah s = .next t → exec .convah t = .next t) ∧
  (∀ raw : Half, fAH raw = fAH (raw &&& 0xFFFC#16)) ∧ State.reset.regs.hvalid = false ∧
  (∀ raw : Half, (fAH raw < 0 ↔ raw.toNat ≤ 0x0C4B) ∧ (10000 < fAH raw ↔ 0xD91C ≤ raw.toNat)) ∧
  fAH 0x6600#16 = 4380

/-- R153: CONVBT, over the temperature latch with fBT and no masking. -/
def Obligations.ConvbtConvertsOrRefuses : Prop :=
  (∀ s : State,
    (s.regs.tvalid = true → exec .convbt s =
      .next { s with regs := { s.regs with rest := BitVec.ofInt 32 (fBT s.regs.rawt), rtvalid := true } }) ∧
    (s.regs.tvalid = false → exec .convbt s =
      .next { s with regs := { s.regs with rtvalid := false, converr := true } })) ∧
  encode .convbt = 0x22000000#32 ∧ decode 0x22000000#32 = .ok .convbt ∧
  (∃ raw : Half, fBT raw ≠ fBT (raw &&& 0xFFFC#16)) ∧
  fBT 0xFFFF#16 = 130000 ∧ fBT 0x0000#16 = -45000 ∧ fBT 0x6600#16 = 24727

/-- R154: CONVBH, over the humidity latch with fBH and no masking. -/
def Obligations.ConvbhConvertsOrRefuses : Prop :=
  (∀ s : State,
    (s.regs.hvalid = true → exec .convbh s =
      .next { s with regs := { s.regs with resh := BitVec.ofInt 32 (fBH s.regs.rawh), rhvalid := true } }) ∧
    (s.regs.hvalid = false → exec .convbh s =
      .next { s with regs := { s.regs with rhvalid := false, converr := true } })) ∧
  encode .convbh = 0x23000000#32 ∧ decode 0x23000000#32 = .ok .convbh ∧
  fBH 0xFFFF#16 = 10000 ∧ fBH 0x0000#16 = 0 ∧ fBH 0x8000#16 = 5000

/-- R156: CONVRAT converts its operand by fAT, whatever TVALID is, and writes REST and RTVALID alone. -/
def Obligations.ConvratConvertsItsOperand : Prop :=
  (∀ (raw : Half) (s : State), exec (.convrat raw) s =
    .next { s with regs := { s.regs with rest := BitVec.ofInt 32 (fAT raw), rtvalid := true } }) ∧
  (∀ raw : Half, encode (.convrat raw) = 0x30000000#32 ||| raw.zeroExtend 32) ∧
  (∀ w : Word, opField w = 0x30#8 → (w.extractLsb' 16 8 = 0#8 → decode w = .ok (.convrat (w.extractLsb' 0 16))) ∧
    (w.extractLsb' 16 8 ≠ 0#8 → decode w = .error (.reservedBitSet 0x30#8))) ∧
  fAT 0x0003#16 = -4685 ∧ fAT 0x0000#16 = -4685 ∧ fAT 0x0004#16 = -4684 ∧ BitVec.ofInt 32 (-4685) = 0xFFFFEDB3#32

/-- R157: CONVRAH converts its operand by fAH, whatever HVALID is, and writes RESH and RHVALID alone. -/
def Obligations.ConvrahConvertsItsOperand : Prop :=
  (∀ (raw : Half) (s : State), exec (.convrah raw) s =
    .next { s with regs := { s.regs with resh := BitVec.ofInt 32 (fAH raw), rhvalid := true } }) ∧
  (∀ raw : Half, encode (.convrah raw) = 0x31000000#32 ||| raw.zeroExtend 32) ∧
  (∀ w : Word, opField w = 0x31#8 → w.extractLsb' 16 8 = 0#8 → decode w = .ok (.convrah (w.extractLsb' 0 16))) ∧
  fAH 0xFFFF#16 = 11899 ∧ fAH 0x0000#16 = -600 ∧ BitVec.ofInt 32 (-600) = 0xFFFFFDA8#32

/-- R158: CONVRBT converts its operand by fBT, whatever TVALID is, and writes REST and RTVALID alone. -/
def Obligations.ConvrbtConvertsItsOperand : Prop :=
  (∀ (raw : Half) (s : State), exec (.convrbt raw) s =
    .next { s with regs := { s.regs with rest := BitVec.ofInt 32 (fBT raw), rtvalid := true } }) ∧
  (∀ raw : Half, encode (.convrbt raw) = 0x32000000#32 ||| raw.zeroExtend 32) ∧
  (∀ w : Word, opField w = 0x32#8 → w.extractLsb' 16 8 = 0#8 → decode w = .ok (.convrbt (w.extractLsb' 0 16))) ∧
  BitVec.ofInt 32 (fBT 0xFFFF#16) = 0x0001FBD0#32 ∧ BitVec.ofInt 32 (fBT 0x0000#16) = 0xFFFF5038#32 ∧
  fBT 0xFFFF#16 = 130000 ∧ fBT 0x0000#16 = -45000 ∧ fBT 0x8000#16 = 42501

/-- R159: CONVRBH converts its operand by fBH, whatever HVALID is, and writes RESH and RHVALID alone. -/
def Obligations.ConvrbhConvertsItsOperand : Prop :=
  (∀ (raw : Half) (s : State), exec (.convrbh raw) s =
    .next { s with regs := { s.regs with resh := BitVec.ofInt 32 (fBH raw), rhvalid := true } }) ∧
  (∀ raw : Half, encode (.convrbh raw) = 0x33000000#32 ||| raw.zeroExtend 32) ∧
  (∀ w : Word, opField w = 0x33#8 → w.extractLsb' 16 8 = 0#8 → decode w = .ok (.convrbh (w.extractLsb' 0 16))) ∧
  fBH 0xFFFF#16 = 10000 ∧ fBH 0x0000#16 = 0 ∧ fBH 0x7FFF#16 = 4999

/-! ### Control: 43_control.md -/

/-- R170: NOP changes no register; its word is 0x00000000, and every other word with OP 0x00 is illegal. -/
def Obligations.NopChangesNothing : Prop :=
  (∀ s : State, exec .nop s = .next s) ∧ encode .nop = 0x00000000#32 ∧ decode 0x00000000#32 = .ok .nop ∧
  (∀ w : Word, opField w = 0x00#8 → w.extractLsb' 0 24 ≠ 0#24 → decode w = .error (.reservedBitSet 0x00#8))

/-- R171: CLRSTAT clears CONVERR and ILLCMD and changes nothing else; a CLRSTAT word with a nonzero operand sets ILLCMD. -/
def Obligations.ClrstatClearsTheStickyBits : Prop :=
  (∀ s : State, exec .clrstat s = .next { s with regs := { s.regs with converr := false, illcmd := false } }) ∧
  encode .clrstat = 0x40000000#32 ∧ decode 0x40000000#32 = .ok .clrstat ∧
  (∀ (w : Word) (s : State), opField w = 0x40#8 → w.extractLsb' 0 24 ≠ 0#24 →
    execWord w s = .next { s with regs := { s.regs with illcmd := true } }) ∧
  (∀ s t : State, s.regs.readWindow 0x14 = 0x00000180#32 → exec .clrstat s = .next t → t.regs.readWindow 0x14 = 0#32)

/-! ### Reset: 70_reset_and_hazards.md, 43_control.md R172 -/

/-- R200: the reset value of every field, and what the window then reads. -/
def Obligations.ResetGivesEveryFieldItsValue : Prop :=
  State.reset.regs =
    { chken := true, poly := 0x31#8, init := 0x00#8, crc := 0x00#8, matched := false, tvalid := false, hvalid := false,
      tchkerr := false, hchkerr := false, rtvalid := false, rhvalid := false, converr := false, illcmd := false,
      rawt := 0x0000#16, rawh := 0x0000#16, rest := 0x00000000#32, resh := 0x00000000#32, lastcrc := 0x00#8 } ∧
  (∀ off, State.reset.regs.readWindow off = if off = 0x04 then 1#32 else if off = 0x08 then 0x31#32 else 0#32)

/-- R201 with R172: power-up, asserting the reset input and SRESET have one effect on the block, the reset of R200, from every
state; the model performs no access to the window while the reset input is asserted. -/
def Obligations.TheThreeResetSourcesAgree : Prop :=
  (∀ s : State, ∃ t, exec .sreset s = .next t ∧ t.regs = State.reset.regs) ∧
  (encode .sreset = 0xF0000000#32 ∧ decode 0xF0000000#32 = .ok .sreset) ∧
  (∀ (s : State) (rest : List Event), s.pending = .powerUp :: rest → ∃ t, step s = .next t ∧ t.regs = State.reset.regs) ∧
  (∀ (s : State) (rest : List Event), s.pending = .resetInput true :: rest →
    ∃ t, step s = .next t ∧ t.regs = State.reset.regs) ∧
  (∀ s t : State, s.nextResets = true → step s = .next t → t.regs = State.reset.regs) ∧
  (∀ (s t : State) (a : Access), s.resetAsserted = true → s.nextEvent = some (.access a) → step s ≠ .next t)

/-- R204: after reset both valid bits are 0; a valid bit becomes 1 only in a step whose validation passes; and while it is 0 its gated
conversions are refused with CONVERR set. -/
def Obligations.GatedConversionsAreRefusedUntilAFieldPasses : Prop :=
  (State.reset.regs.tvalid = false ∧ State.reset.regs.hvalid = false) ∧
  (∀ s t : State, step s = .next t → s.regs.tvalid = false → t.regs.tvalid = true →
    ∃ d0 d1 c, s.nextCommand = some (.valt d0 d1 c) ∧
      (s.regs.chken = false ∨ crc8 s.regs.init s.regs.poly [d0, d1] = c)) ∧
  (∀ s t : State, step s = .next t → s.regs.hvalid = false → t.regs.hvalid = true →
    ∃ d0 d1 c, s.nextCommand = some (.valh d0 d1 c) ∧
      (s.regs.chken = false ∨ crc8 s.regs.init s.regs.poly [d0, d1] = c)) ∧
  (∀ (i : Instr) (s : State), s.regs.tvalid = false → i = .convat ∨ i = .convbt →
    exec i s = .next { s with regs := { s.regs with rtvalid := false, converr := true } }) ∧
  (∀ (i : Instr) (s : State), s.regs.hvalid = false → i = .convah ∨ i = .convbh →
    exec i s = .next { s with regs := { s.regs with rhvalid := false, converr := true } })

/-- R208: after a VALT, RTVALID stays 0 until a temperature conversion, and after a VALH, RHVALID until a humidity conversion. -/
def Obligations.ResultsStayStaleUntilAConversion : Prop :=
  (∀ (d0 d1 c : Byte) (s t : State), exec (.valt d0 d1 c) s = .next t → t.regs.rtvalid = false) ∧
  (∀ (d0 d1 c : Byte) (s t : State), exec (.valh d0 d1 c) s = .next t → t.regs.rhvalid = false) ∧
  (∀ s t : State, step s = .next t → s.regs.rtvalid = false → t.regs.rtvalid = true →
    s.nextCommand = some .convat ∨ s.nextCommand = some .convbt ∨
      ∃ raw, s.nextCommand = some (.convrat raw) ∨ s.nextCommand = some (.convrbt raw)) ∧
  (∀ s t : State, step s = .next t → s.regs.rhvalid = false → t.regs.rhvalid = true →
    s.nextCommand = some .convah ∨ s.nextCommand = some .convbh ∨
      ∃ raw, s.nextCommand = some (.convrah raw) ∨ s.nextCommand = some (.convrbh raw))

/-- R207: a write to POLY, INIT or CTRL changes that field and nothing else: STATE is not recomputed, no latched field is judged
again. -/
def Obligations.ConfigurationWritesAreNotRetroactive : Prop :=
  ∀ (s : State) (rest : List Event) (g : Reg) (v : Word), g = .poly ∨ g = .init ∨ g = .ctrl →
    s.pending = .access (memWrite (Config.base + regOffset g) 4 v.toNat) :: rest → s.resetAsserted = false →
    ∃ t, step s = .next t ∧ t.regs.crc = s.regs.crc ∧ t.regs.temperaturePart = s.regs.temperaturePart ∧
      t.regs.humidityPart = s.regs.humidityPart ∧ t.regs.lastcrc = s.regs.lastcrc ∧
      t.regs.readWindow 0x14 = s.regs.readWindow 0x14
end

