-- ==== Sys2Proof/Laws/Decode.lean ====
section
/-!
SUPPORT. What the encodings and the byte lanes are as numbers, and what a row's hit and a decoded word say
(30_encoding.md R80-R88, 20_memory.md R61).
-/

namespace Sys2Proof

/-- A concatenation as a number: the left part in the more significant position (R8). -/
theorem toNat_append_eq {m n : Nat} (x : BitVec m) (y : BitVec n) :
    (x ++ y).toNat = x.toNat * 2 ^ n + y.toNat := by
  rw [BitVec.toNat_append, ← Nat.shiftLeft_add_eq_or_of_lt y.isLt, Nat.shiftLeft_eq]

theorem encodeN_toNat (op : Byte) : (encodeN op).toNat = op.toNat * 2 ^ 24 := by
  have h := toNat_append_eq op 0#24
  refine h.trans ?_
  simp

theorem encodeB_toNat (op b : Byte) : (encodeB op b).toNat = op.toNat * 2 ^ 24 + b.toNat := by
  have h := toNat_append_eq (op ++ 0#16) b
  rw [toNat_append_eq op 0#16] at h
  refine h.trans ?_
  simp; omega

theorem encodeV_toNat (op d0 d1 c : Byte) :
    (encodeV op d0 d1 c).toNat = op.toNat * 2 ^ 24 + d0.toNat * 2 ^ 16 + d1.toNat * 2 ^ 8 + c.toNat := by
  have h := toNat_append_eq (op ++ d0 ++ d1) c
  rw [toNat_append_eq (op ++ d0) d1, toNat_append_eq op d0] at h
  refine h.trans ?_
  omega

theorem encodeR_toNat (op : Byte) (raw : Half) : (encodeR op raw).toNat = op.toNat * 2 ^ 24 + raw.toNat := by
  have h := toNat_append_eq (op ++ 0#8) raw
  rw [toNat_append_eq op 0#8] at h
  refine h.trans ?_
  simp; omega

theorem opField_toNat (w : Word) : (opField w).toNat = w.toNat / 2 ^ 24 := by
  simp [opField, Nat.shiftRight_eq_div_pow]; omega
theorem d0Field_toNat (w : Word) : (d0Field w).toNat = w.toNat / 2 ^ 16 % 2 ^ 8 := by
  simp [d0Field, Nat.shiftRight_eq_div_pow]
theorem d1Field_toNat (w : Word) : (d1Field w).toNat = w.toNat / 2 ^ 8 % 2 ^ 8 := by
  simp [d1Field, Nat.shiftRight_eq_div_pow]
theorem bField_toNat (w : Word) : (bField w).toNat = w.toNat % 2 ^ 8 := by
  simp [bField]
theorem rawField_toNat (w : Word) : (rawField w).toNat = w.toNat % 2 ^ 16 := by
  simp [rawField]

/-- A mask of the high bits clears the low ones. -/
theorem and_high_mask (w : Word) (k : Nat) : w &&& (BitVec.allOnes 32 <<< k) = (w >>> k) <<< k := by
  apply BitVec.eq_of_getLsbD_eq
  intro i hi
  simp only [BitVec.getLsbD_and, BitVec.getLsbD_shiftLeft, BitVec.getLsbD_allOnes, BitVec.getLsbD_ushiftRight]
  by_cases h : i < k
  · simp [h]
  · have : k + (i - k) = i := by omega
    have : i - k < 32 := by omega
    simp [*]

theorem and_high_mask_toNat (w : Word) (k : Nat) :
    (w &&& (BitVec.allOnes 32 <<< k)).toNat = w.toNat / 2 ^ k * 2 ^ k := by
  rw [and_high_mask, BitVec.toNat_shiftLeft, BitVec.toNat_ushiftRight, Nat.shiftRight_eq_div_pow, Nat.shiftLeft_eq]
  apply Nat.mod_eq_of_lt
  have := Nat.div_mul_le_self w.toNat (2 ^ k)
  omega

/-- A row whose mask clears the low `k` bits hits the words that agree with its pattern above them. -/
theorem hits_toNat (m : Mnemonic) (p : Word) (k : Nat) (w : Word) :
    (Row.hits ⟨m, p, BitVec.allOnes 32 <<< k⟩ w = true) ↔ w.toNat / 2 ^ k * 2 ^ k = p.toNat := by
  rw [Row.hits, beq_iff_eq, ← BitVec.toNat_inj, and_high_mask_toNat]

theorem lanes_length (n v : Nat) : (lanes n v).length = n := by
  induction n generalizing v with
  | zero => rfl
  | succ n ih => simp [lanes, ih]

theorem wordOfLanes_nil : wordOfLanes [] = 0#32 := rfl

theorem wordOfLanes_cons_toNat (b : Byte) (bs : List Byte) :
    (wordOfLanes (b :: bs)).toNat = (wordOfLanes bs).toNat * 2 ^ 8 % 2 ^ 32 + b.toNat := by
  have hb : (b.setWidth 32).toNat = b.toNat := by simp; omega
  have hs : (wordOfLanes bs <<< 8).toNat = (wordOfLanes bs).toNat * 2 ^ 8 % 2 ^ 32 := by
    rw [BitVec.toNat_shiftLeft, Nat.shiftLeft_eq]
  have hm : (wordOfLanes bs).toNat * 2 ^ 8 % 2 ^ 32 = ((wordOfLanes bs).toNat % 2 ^ 24) <<< 8 := by
    rw [Nat.shiftLeft_eq]; omega
  rw [wordOfLanes, BitVec.toNat_or, hb, hs, hm, ← Nat.shiftLeft_add_eq_or_of_lt b.isLt]

/-- Laying a number out in four byte lanes and reading it back keeps its low 32 bits (R61). -/
theorem wordOfLanes_lanes (v : Nat) : wordOfLanes (lanes 4 v) = BitVec.ofNat 32 v := by
  apply BitVec.eq_of_toNat_eq
  simp only [lanes, wordOfLanes_cons_toNat, BitVec.toNat_ofNat, wordOfLanes_nil]
  omega

theorem wordOfLanes_wordLanes (w : Word) : wordOfLanes (wordLanes w) = w := by
  rw [wordLanes, wordOfLanes_lanes, BitVec.ofNat_toNat, BitVec.setWidth_eq]

theorem hits_formatN (m : Mnemonic) (p w : Word) :
    Row.hits ⟨m, p, 0xFFFFFFFF#32⟩ w = true ↔ w.toNat = p.toNat := by
  simpa using hits_toNat m p 0 w

theorem hits_formatB (m : Mnemonic) (p w : Word) :
    Row.hits ⟨m, p, 0xFFFFFF00#32⟩ w = true ↔ w.toNat / 2 ^ 8 * 2 ^ 8 = p.toNat :=
  hits_toNat m p 8 w

theorem hits_formatR (m : Mnemonic) (p w : Word) :
    Row.hits ⟨m, p, 0xFFFF0000#32⟩ w = true ↔ w.toNat / 2 ^ 16 * 2 ^ 16 = p.toNat :=
  hits_toNat m p 16 w

theorem hits_formatV (m : Mnemonic) (p w : Word) :
    Row.hits ⟨m, p, 0xFF000000#32⟩ w = true ↔ w.toNat / 2 ^ 24 * 2 ^ 24 = p.toNat :=
  hits_toNat m p 24 w

/-- A row found is a row of the map, and the word matches it (R80 step 1). -/
theorem findRow_some {w : Word} {r : Row} (h : findRow w = some r) : r ∈ opcodeMap ∧ r.hits w = true :=
  ⟨List.mem_of_find?_eq_some h, by simpa using List.find?_some h⟩

/-- No row found: the word matches none (R80 step 3). -/
theorem findRow_none {w : Word} : findRow w = none ↔ ∀ r ∈ opcodeMap, r.hits w = false := by
  simp [findRow, List.find?_eq_none]

/-- A decoded command is that of a row the word matches (R80). -/
theorem decode_ok {w : Word} {i : Instr} (h : decode w = .ok i) :
    ∃ r ∈ opcodeMap, r.hits w = true ∧ r.mnemonic.instr w = i := by
  unfold decode at h
  split at h
  · next r hr => exact ⟨r, (findRow_some hr).1, (findRow_some hr).2, by simpa using h⟩
  · cases h

/-- A word the decoder rejects matches no row (R80, R89). -/
theorem decode_error {w : Word} {e : DecodeError} (h : decode w = .error e) : ∀ r ∈ opcodeMap, r.hits w = false := by
  unfold decode at h
  split at h
  · cases h
  · next hr => exact findRow_none.mp hr

/-- The decoder on a word's own lanes is the decoder on the word, and hands the rest back (R61, R81). -/
theorem decodeBytes_wordLanes (w : Word) (rest : List Byte) :
    decodeBytes (wordLanes w ++ rest) = (decode w).map fun i => (i, rest) := by
  have h : wordOfLanes [BitVec.ofNat 8 w.toNat, BitVec.ofNat 8 (w.toNat / 256), BitVec.ofNat 8 (w.toNat / 256 / 256),
      BitVec.ofNat 8 (w.toNat / 256 / 256 / 256)] = w := wordOfLanes_wordLanes w
  simp only [wordLanes, lanes, List.cons_append, List.nil_append, decodeBytes, h]
  cases decode w <;> rfl

end Sys2Proof
end

