-- ==== Sys2Proof/Laws/PerInstr.lean ====
section
/-!
SUPPORT. Statements made once per instruction, as syntax: the family EncodeMatchesRow says that an instruction's word
matches the row of the opcode map that bears its name, and that the row reads the same operands back (R83-R88).
-/

namespace Sys2Proof.Laws

/-- The word of an instruction matches its own row, and the row's fields hold its operands. -/
def EncodeMatchesRow.Statement (i : Instr) : Prop :=
  ∃ r ∈ opcodeMap, r.mnemonic = i.toAsm.mnemonic ∧ r.hits (encode i) = true ∧ r.mnemonic.instr (encode i) = i

/-! ### Operands read back from each format -/

theorem bField_encodeB (op b : Byte) : bField (encodeB op b) = b := by
  apply BitVec.eq_of_toNat_eq
  rw [bField_toNat, encodeB_toNat]
  omega

theorem fields_encodeV (op d0 d1 c : Byte) :
    d0Field (encodeV op d0 d1 c) = d0 ∧ d1Field (encodeV op d0 d1 c) = d1 ∧ bField (encodeV op d0 d1 c) = c := by
  refine ⟨?_, ?_, ?_⟩ <;> apply BitVec.eq_of_toNat_eq
  · rw [d0Field_toNat, encodeV_toNat]; omega
  · rw [d1Field_toNat, encodeV_toNat]; omega
  · rw [bField_toNat, encodeV_toNat]; omega

theorem rawField_encodeR (op : Byte) (raw : Half) : rawField (encodeR op raw) = raw := by
  apply BitVec.eq_of_toNat_eq
  rw [rawField_toNat, encodeR_toNat]
  omega

/-! ### One lemma per constructor -/

theorem EncodeMatchesRow.nop : EncodeMatchesRow.Statement .nop :=
  ⟨⟨.nop, 0x00000000#32, 0xFFFFFFFF#32⟩, by decide, rfl, by decide, rfl⟩

theorem EncodeMatchesRow.crcinit : EncodeMatchesRow.Statement .crcinit :=
  ⟨⟨.crcinit, 0x01000000#32, 0xFFFFFFFF#32⟩, by decide, rfl, by decide, rfl⟩

theorem EncodeMatchesRow.crcbyte (b : Byte) : EncodeMatchesRow.Statement (.crcbyte b) := by
  refine ⟨⟨.crcbyte, 0x02000000#32, 0xFFFFFF00#32⟩, by decide, rfl, ?_, ?_⟩
  · rw [hits_formatB, encode, encodeB_toNat]
    simp only [BitVec.toNat_ofNat]
    omega
  · exact congrArg Instr.crcbyte (bField_encodeB _ b)

theorem EncodeMatchesRow.crccmp (b : Byte) : EncodeMatchesRow.Statement (.crccmp b) := by
  refine ⟨⟨.crccmp, 0x03000000#32, 0xFFFFFF00#32⟩, by decide, rfl, ?_, ?_⟩
  · rw [hits_formatB, encode, encodeB_toNat]
    simp only [BitVec.toNat_ofNat]
    omega
  · exact congrArg Instr.crccmp (bField_encodeB _ b)

theorem EncodeMatchesRow.valt (d0 d1 c : Byte) : EncodeMatchesRow.Statement (.valt d0 d1 c) := by
  refine ⟨⟨.valt, 0x10000000#32, 0xFF000000#32⟩, by decide, rfl, ?_, ?_⟩
  · rw [hits_formatV, encode, encodeV_toNat]
    simp only [BitVec.toNat_ofNat]
    omega
  · exact by
      obtain ⟨h0, h1, h2⟩ := fields_encodeV 0x10#8 d0 d1 c
      exact congr (congr (congrArg Instr.valt h0) h1) h2

theorem EncodeMatchesRow.valh (d0 d1 c : Byte) : EncodeMatchesRow.Statement (.valh d0 d1 c) := by
  refine ⟨⟨.valh, 0x11000000#32, 0xFF000000#32⟩, by decide, rfl, ?_, ?_⟩
  · rw [hits_formatV, encode, encodeV_toNat]
    simp only [BitVec.toNat_ofNat]
    omega
  · exact by
      obtain ⟨h0, h1, h2⟩ := fields_encodeV 0x11#8 d0 d1 c
      exact congr (congr (congrArg Instr.valh h0) h1) h2

theorem EncodeMatchesRow.convat : EncodeMatchesRow.Statement .convat :=
  ⟨⟨.convat, 0x20000000#32, 0xFFFFFFFF#32⟩, by decide, rfl, by decide, rfl⟩

theorem EncodeMatchesRow.convah : EncodeMatchesRow.Statement .convah :=
  ⟨⟨.convah, 0x21000000#32, 0xFFFFFFFF#32⟩, by decide, rfl, by decide, rfl⟩

theorem EncodeMatchesRow.convbt : EncodeMatchesRow.Statement .convbt :=
  ⟨⟨.convbt, 0x22000000#32, 0xFFFFFFFF#32⟩, by decide, rfl, by decide, rfl⟩

theorem EncodeMatchesRow.convbh : EncodeMatchesRow.Statement .convbh :=
  ⟨⟨.convbh, 0x23000000#32, 0xFFFFFFFF#32⟩, by decide, rfl, by decide, rfl⟩

theorem EncodeMatchesRow.convrat (raw : Half) : EncodeMatchesRow.Statement (.convrat raw) := by
  refine ⟨⟨.convrat, 0x30000000#32, 0xFFFF0000#32⟩, by decide, rfl, ?_, ?_⟩
  · rw [hits_formatR, encode, encodeR_toNat]
    simp only [BitVec.toNat_ofNat]
    omega
  · exact congrArg Instr.convrat (rawField_encodeR _ raw)

theorem EncodeMatchesRow.convrah (raw : Half) : EncodeMatchesRow.Statement (.convrah raw) := by
  refine ⟨⟨.convrah, 0x31000000#32, 0xFFFF0000#32⟩, by decide, rfl, ?_, ?_⟩
  · rw [hits_formatR, encode, encodeR_toNat]
    simp only [BitVec.toNat_ofNat]
    omega
  · exact congrArg Instr.convrah (rawField_encodeR _ raw)

theorem EncodeMatchesRow.convrbt (raw : Half) : EncodeMatchesRow.Statement (.convrbt raw) := by
  refine ⟨⟨.convrbt, 0x32000000#32, 0xFFFF0000#32⟩, by decide, rfl, ?_, ?_⟩
  · rw [hits_formatR, encode, encodeR_toNat]
    simp only [BitVec.toNat_ofNat]
    omega
  · exact congrArg Instr.convrbt (rawField_encodeR _ raw)

theorem EncodeMatchesRow.convrbh (raw : Half) : EncodeMatchesRow.Statement (.convrbh raw) := by
  refine ⟨⟨.convrbh, 0x33000000#32, 0xFFFF0000#32⟩, by decide, rfl, ?_, ?_⟩
  · rw [hits_formatR, encode, encodeR_toNat]
    simp only [BitVec.toNat_ofNat]
    omega
  · exact congrArg Instr.convrbh (rawField_encodeR _ raw)

theorem EncodeMatchesRow.clrstat : EncodeMatchesRow.Statement .clrstat :=
  ⟨⟨.clrstat, 0x40000000#32, 0xFFFFFFFF#32⟩, by decide, rfl, by decide, rfl⟩

theorem EncodeMatchesRow.sreset : EncodeMatchesRow.Statement .sreset :=
  ⟨⟨.sreset, 0xF0000000#32, 0xFFFFFFFF#32⟩, by decide, rfl, by decide, rfl⟩

end Sys2Proof.Laws
end

