-- ==== Sys2Proof/Laws/State.lean ====
section
/-!
SUPPORT. One lemma per field per update of the registers and of the machine, each true by `rfl`, so that no later proof
unfolds a record update.
-/

namespace Sys2Proof.Machine

@[simp] theorem Regs.setCrc_chken (r : Regs) (v : Byte) : (r.setCrc v).chken = r.chken := rfl
@[simp] theorem Regs.setCrc_poly (r : Regs) (v : Byte) : (r.setCrc v).poly = r.poly := rfl
@[simp] theorem Regs.setCrc_init (r : Regs) (v : Byte) : (r.setCrc v).init = r.init := rfl
@[simp] theorem Regs.setCrc_crc (r : Regs) (v : Byte) : (r.setCrc v).crc = v := rfl
@[simp] theorem Regs.setCrc_matched (r : Regs) (v : Byte) : (r.setCrc v).matched = r.matched := rfl
@[simp] theorem Regs.setCrc_tvalid (r : Regs) (v : Byte) : (r.setCrc v).tvalid = r.tvalid := rfl
@[simp] theorem Regs.setCrc_hvalid (r : Regs) (v : Byte) : (r.setCrc v).hvalid = r.hvalid := rfl
@[simp] theorem Regs.setCrc_tchkerr (r : Regs) (v : Byte) : (r.setCrc v).tchkerr = r.tchkerr := rfl
@[simp] theorem Regs.setCrc_hchkerr (r : Regs) (v : Byte) : (r.setCrc v).hchkerr = r.hchkerr := rfl
@[simp] theorem Regs.setCrc_rtvalid (r : Regs) (v : Byte) : (r.setCrc v).rtvalid = r.rtvalid := rfl
@[simp] theorem Regs.setCrc_rhvalid (r : Regs) (v : Byte) : (r.setCrc v).rhvalid = r.rhvalid := rfl
@[simp] theorem Regs.setCrc_converr (r : Regs) (v : Byte) : (r.setCrc v).converr = r.converr := rfl
@[simp] theorem Regs.setCrc_illcmd (r : Regs) (v : Byte) : (r.setCrc v).illcmd = r.illcmd := rfl
@[simp] theorem Regs.setCrc_rawt (r : Regs) (v : Byte) : (r.setCrc v).rawt = r.rawt := rfl
@[simp] theorem Regs.setCrc_rawh (r : Regs) (v : Byte) : (r.setCrc v).rawh = r.rawh := rfl
@[simp] theorem Regs.setCrc_rest (r : Regs) (v : Byte) : (r.setCrc v).rest = r.rest := rfl
@[simp] theorem Regs.setCrc_resh (r : Regs) (v : Byte) : (r.setCrc v).resh = r.resh := rfl
@[simp] theorem Regs.setCrc_lastcrc (r : Regs) (v : Byte) : (r.setCrc v).lastcrc = r.lastcrc := rfl

@[simp] theorem Regs.setMatch_chken (r : Regs) (v : Bool) : (r.setMatch v).chken = r.chken := rfl
@[simp] theorem Regs.setMatch_poly (r : Regs) (v : Bool) : (r.setMatch v).poly = r.poly := rfl
@[simp] theorem Regs.setMatch_init (r : Regs) (v : Bool) : (r.setMatch v).init = r.init := rfl
@[simp] theorem Regs.setMatch_crc (r : Regs) (v : Bool) : (r.setMatch v).crc = r.crc := rfl
@[simp] theorem Regs.setMatch_matched (r : Regs) (v : Bool) : (r.setMatch v).matched = v := rfl
@[simp] theorem Regs.setMatch_tvalid (r : Regs) (v : Bool) : (r.setMatch v).tvalid = r.tvalid := rfl
@[simp] theorem Regs.setMatch_hvalid (r : Regs) (v : Bool) : (r.setMatch v).hvalid = r.hvalid := rfl
@[simp] theorem Regs.setMatch_tchkerr (r : Regs) (v : Bool) : (r.setMatch v).tchkerr = r.tchkerr := rfl
@[simp] theorem Regs.setMatch_hchkerr (r : Regs) (v : Bool) : (r.setMatch v).hchkerr = r.hchkerr := rfl
@[simp] theorem Regs.setMatch_rtvalid (r : Regs) (v : Bool) : (r.setMatch v).rtvalid = r.rtvalid := rfl
@[simp] theorem Regs.setMatch_rhvalid (r : Regs) (v : Bool) : (r.setMatch v).rhvalid = r.rhvalid := rfl
@[simp] theorem Regs.setMatch_converr (r : Regs) (v : Bool) : (r.setMatch v).converr = r.converr := rfl
@[simp] theorem Regs.setMatch_illcmd (r : Regs) (v : Bool) : (r.setMatch v).illcmd = r.illcmd := rfl
@[simp] theorem Regs.setMatch_rawt (r : Regs) (v : Bool) : (r.setMatch v).rawt = r.rawt := rfl
@[simp] theorem Regs.setMatch_rawh (r : Regs) (v : Bool) : (r.setMatch v).rawh = r.rawh := rfl
@[simp] theorem Regs.setMatch_rest (r : Regs) (v : Bool) : (r.setMatch v).rest = r.rest := rfl
@[simp] theorem Regs.setMatch_resh (r : Regs) (v : Bool) : (r.setMatch v).resh = r.resh := rfl
@[simp] theorem Regs.setMatch_lastcrc (r : Regs) (v : Bool) : (r.setMatch v).lastcrc = r.lastcrc := rfl

@[simp] theorem Regs.setChken_chken (r : Regs) (v : Bool) : (r.setChken v).chken = v := rfl
@[simp] theorem Regs.setChken_poly (r : Regs) (v : Bool) : (r.setChken v).poly = r.poly := rfl
@[simp] theorem Regs.setChken_init (r : Regs) (v : Bool) : (r.setChken v).init = r.init := rfl
@[simp] theorem Regs.setChken_crc (r : Regs) (v : Bool) : (r.setChken v).crc = r.crc := rfl
@[simp] theorem Regs.setChken_matched (r : Regs) (v : Bool) : (r.setChken v).matched = r.matched := rfl
@[simp] theorem Regs.setChken_tvalid (r : Regs) (v : Bool) : (r.setChken v).tvalid = r.tvalid := rfl
@[simp] theorem Regs.setChken_hvalid (r : Regs) (v : Bool) : (r.setChken v).hvalid = r.hvalid := rfl
@[simp] theorem Regs.setChken_tchkerr (r : Regs) (v : Bool) : (r.setChken v).tchkerr = r.tchkerr := rfl
@[simp] theorem Regs.setChken_hchkerr (r : Regs) (v : Bool) : (r.setChken v).hchkerr = r.hchkerr := rfl
@[simp] theorem Regs.setChken_rtvalid (r : Regs) (v : Bool) : (r.setChken v).rtvalid = r.rtvalid := rfl
@[simp] theorem Regs.setChken_rhvalid (r : Regs) (v : Bool) : (r.setChken v).rhvalid = r.rhvalid := rfl
@[simp] theorem Regs.setChken_converr (r : Regs) (v : Bool) : (r.setChken v).converr = r.converr := rfl
@[simp] theorem Regs.setChken_illcmd (r : Regs) (v : Bool) : (r.setChken v).illcmd = r.illcmd := rfl
@[simp] theorem Regs.setChken_rawt (r : Regs) (v : Bool) : (r.setChken v).rawt = r.rawt := rfl
@[simp] theorem Regs.setChken_rawh (r : Regs) (v : Bool) : (r.setChken v).rawh = r.rawh := rfl
@[simp] theorem Regs.setChken_rest (r : Regs) (v : Bool) : (r.setChken v).rest = r.rest := rfl
@[simp] theorem Regs.setChken_resh (r : Regs) (v : Bool) : (r.setChken v).resh = r.resh := rfl
@[simp] theorem Regs.setChken_lastcrc (r : Regs) (v : Bool) : (r.setChken v).lastcrc = r.lastcrc := rfl

@[simp] theorem Regs.setPoly_chken (r : Regs) (v : Byte) : (r.setPoly v).chken = r.chken := rfl
@[simp] theorem Regs.setPoly_poly (r : Regs) (v : Byte) : (r.setPoly v).poly = v := rfl
@[simp] theorem Regs.setPoly_init (r : Regs) (v : Byte) : (r.setPoly v).init = r.init := rfl
@[simp] theorem Regs.setPoly_crc (r : Regs) (v : Byte) : (r.setPoly v).crc = r.crc := rfl
@[simp] theorem Regs.setPoly_matched (r : Regs) (v : Byte) : (r.setPoly v).matched = r.matched := rfl
@[simp] theorem Regs.setPoly_tvalid (r : Regs) (v : Byte) : (r.setPoly v).tvalid = r.tvalid := rfl
@[simp] theorem Regs.setPoly_hvalid (r : Regs) (v : Byte) : (r.setPoly v).hvalid = r.hvalid := rfl
@[simp] theorem Regs.setPoly_tchkerr (r : Regs) (v : Byte) : (r.setPoly v).tchkerr = r.tchkerr := rfl
@[simp] theorem Regs.setPoly_hchkerr (r : Regs) (v : Byte) : (r.setPoly v).hchkerr = r.hchkerr := rfl
@[simp] theorem Regs.setPoly_rtvalid (r : Regs) (v : Byte) : (r.setPoly v).rtvalid = r.rtvalid := rfl
@[simp] theorem Regs.setPoly_rhvalid (r : Regs) (v : Byte) : (r.setPoly v).rhvalid = r.rhvalid := rfl
@[simp] theorem Regs.setPoly_converr (r : Regs) (v : Byte) : (r.setPoly v).converr = r.converr := rfl
@[simp] theorem Regs.setPoly_illcmd (r : Regs) (v : Byte) : (r.setPoly v).illcmd = r.illcmd := rfl
@[simp] theorem Regs.setPoly_rawt (r : Regs) (v : Byte) : (r.setPoly v).rawt = r.rawt := rfl
@[simp] theorem Regs.setPoly_rawh (r : Regs) (v : Byte) : (r.setPoly v).rawh = r.rawh := rfl
@[simp] theorem Regs.setPoly_rest (r : Regs) (v : Byte) : (r.setPoly v).rest = r.rest := rfl
@[simp] theorem Regs.setPoly_resh (r : Regs) (v : Byte) : (r.setPoly v).resh = r.resh := rfl
@[simp] theorem Regs.setPoly_lastcrc (r : Regs) (v : Byte) : (r.setPoly v).lastcrc = r.lastcrc := rfl

@[simp] theorem Regs.setInit_chken (r : Regs) (v : Byte) : (r.setInit v).chken = r.chken := rfl
@[simp] theorem Regs.setInit_poly (r : Regs) (v : Byte) : (r.setInit v).poly = r.poly := rfl
@[simp] theorem Regs.setInit_init (r : Regs) (v : Byte) : (r.setInit v).init = v := rfl
@[simp] theorem Regs.setInit_crc (r : Regs) (v : Byte) : (r.setInit v).crc = r.crc := rfl
@[simp] theorem Regs.setInit_matched (r : Regs) (v : Byte) : (r.setInit v).matched = r.matched := rfl
@[simp] theorem Regs.setInit_tvalid (r : Regs) (v : Byte) : (r.setInit v).tvalid = r.tvalid := rfl
@[simp] theorem Regs.setInit_hvalid (r : Regs) (v : Byte) : (r.setInit v).hvalid = r.hvalid := rfl
@[simp] theorem Regs.setInit_tchkerr (r : Regs) (v : Byte) : (r.setInit v).tchkerr = r.tchkerr := rfl
@[simp] theorem Regs.setInit_hchkerr (r : Regs) (v : Byte) : (r.setInit v).hchkerr = r.hchkerr := rfl
@[simp] theorem Regs.setInit_rtvalid (r : Regs) (v : Byte) : (r.setInit v).rtvalid = r.rtvalid := rfl
@[simp] theorem Regs.setInit_rhvalid (r : Regs) (v : Byte) : (r.setInit v).rhvalid = r.rhvalid := rfl
@[simp] theorem Regs.setInit_converr (r : Regs) (v : Byte) : (r.setInit v).converr = r.converr := rfl
@[simp] theorem Regs.setInit_illcmd (r : Regs) (v : Byte) : (r.setInit v).illcmd = r.illcmd := rfl
@[simp] theorem Regs.setInit_rawt (r : Regs) (v : Byte) : (r.setInit v).rawt = r.rawt := rfl
@[simp] theorem Regs.setInit_rawh (r : Regs) (v : Byte) : (r.setInit v).rawh = r.rawh := rfl
@[simp] theorem Regs.setInit_rest (r : Regs) (v : Byte) : (r.setInit v).rest = r.rest := rfl
@[simp] theorem Regs.setInit_resh (r : Regs) (v : Byte) : (r.setInit v).resh = r.resh := rfl
@[simp] theorem Regs.setInit_lastcrc (r : Regs) (v : Byte) : (r.setInit v).lastcrc = r.lastcrc := rfl

@[simp] theorem Regs.setLastCrc_chken (r : Regs) (c : Byte) : (r.setLastCrc c).chken = r.chken := rfl
@[simp] theorem Regs.setLastCrc_poly (r : Regs) (c : Byte) : (r.setLastCrc c).poly = r.poly := rfl
@[simp] theorem Regs.setLastCrc_init (r : Regs) (c : Byte) : (r.setLastCrc c).init = r.init := rfl
@[simp] theorem Regs.setLastCrc_crc (r : Regs) (c : Byte) : (r.setLastCrc c).crc = r.crc := rfl
@[simp] theorem Regs.setLastCrc_matched (r : Regs) (c : Byte) : (r.setLastCrc c).matched = r.matched := rfl
@[simp] theorem Regs.setLastCrc_tvalid (r : Regs) (c : Byte) : (r.setLastCrc c).tvalid = r.tvalid := rfl
@[simp] theorem Regs.setLastCrc_hvalid (r : Regs) (c : Byte) : (r.setLastCrc c).hvalid = r.hvalid := rfl
@[simp] theorem Regs.setLastCrc_tchkerr (r : Regs) (c : Byte) : (r.setLastCrc c).tchkerr = r.tchkerr := rfl
@[simp] theorem Regs.setLastCrc_hchkerr (r : Regs) (c : Byte) : (r.setLastCrc c).hchkerr = r.hchkerr := rfl
@[simp] theorem Regs.setLastCrc_rtvalid (r : Regs) (c : Byte) : (r.setLastCrc c).rtvalid = r.rtvalid := rfl
@[simp] theorem Regs.setLastCrc_rhvalid (r : Regs) (c : Byte) : (r.setLastCrc c).rhvalid = r.rhvalid := rfl
@[simp] theorem Regs.setLastCrc_converr (r : Regs) (c : Byte) : (r.setLastCrc c).converr = r.converr := rfl
@[simp] theorem Regs.setLastCrc_illcmd (r : Regs) (c : Byte) : (r.setLastCrc c).illcmd = r.illcmd := rfl
@[simp] theorem Regs.setLastCrc_rawt (r : Regs) (c : Byte) : (r.setLastCrc c).rawt = r.rawt := rfl
@[simp] theorem Regs.setLastCrc_rawh (r : Regs) (c : Byte) : (r.setLastCrc c).rawh = r.rawh := rfl
@[simp] theorem Regs.setLastCrc_rest (r : Regs) (c : Byte) : (r.setLastCrc c).rest = r.rest := rfl
@[simp] theorem Regs.setLastCrc_resh (r : Regs) (c : Byte) : (r.setLastCrc c).resh = r.resh := rfl
@[simp] theorem Regs.setLastCrc_lastcrc (r : Regs) (c : Byte) : (r.setLastCrc c).lastcrc = c := rfl

@[simp] theorem Regs.acceptField_temperature_chken (r : Regs) (raw : Half) : (r.acceptField .temperature raw).chken = r.chken := rfl
@[simp] theorem Regs.acceptField_temperature_poly (r : Regs) (raw : Half) : (r.acceptField .temperature raw).poly = r.poly := rfl
@[simp] theorem Regs.acceptField_temperature_init (r : Regs) (raw : Half) : (r.acceptField .temperature raw).init = r.init := rfl
@[simp] theorem Regs.acceptField_temperature_crc (r : Regs) (raw : Half) : (r.acceptField .temperature raw).crc = r.crc := rfl
@[simp] theorem Regs.acceptField_temperature_matched (r : Regs) (raw : Half) : (r.acceptField .temperature raw).matched = r.matched := rfl
@[simp] theorem Regs.acceptField_temperature_tvalid (r : Regs) (raw : Half) : (r.acceptField .temperature raw).tvalid = true := rfl
@[simp] theorem Regs.acceptField_temperature_hvalid (r : Regs) (raw : Half) : (r.acceptField .temperature raw).hvalid = r.hvalid := rfl
@[simp] theorem Regs.acceptField_temperature_tchkerr (r : Regs) (raw : Half) : (r.acceptField .temperature raw).tchkerr = false := rfl
@[simp] theorem Regs.acceptField_temperature_hchkerr (r : Regs) (raw : Half) : (r.acceptField .temperature raw).hchkerr = r.hchkerr := rfl
@[simp] theorem Regs.acceptField_temperature_rtvalid (r : Regs) (raw : Half) : (r.acceptField .temperature raw).rtvalid = r.rtvalid := rfl
@[simp] theorem Regs.acceptField_temperature_rhvalid (r : Regs) (raw : Half) : (r.acceptField .temperature raw).rhvalid = r.rhvalid := rfl
@[simp] theorem Regs.acceptField_temperature_converr (r : Regs) (raw : Half) : (r.acceptField .temperature raw).converr = r.converr := rfl
@[simp] theorem Regs.acceptField_temperature_illcmd (r : Regs) (raw : Half) : (r.acceptField .temperature raw).illcmd = r.illcmd := rfl
@[simp] theorem Regs.acceptField_temperature_rawt (r : Regs) (raw : Half) : (r.acceptField .temperature raw).rawt = raw := rfl
@[simp] theorem Regs.acceptField_temperature_rawh (r : Regs) (raw : Half) : (r.acceptField .temperature raw).rawh = r.rawh := rfl
@[simp] theorem Regs.acceptField_temperature_rest (r : Regs) (raw : Half) : (r.acceptField .temperature raw).rest = r.rest := rfl
@[simp] theorem Regs.acceptField_temperature_resh (r : Regs) (raw : Half) : (r.acceptField .temperature raw).resh = r.resh := rfl
@[simp] theorem Regs.acceptField_temperature_lastcrc (r : Regs) (raw : Half) : (r.acceptField .temperature raw).lastcrc = r.lastcrc := rfl

@[simp] theorem Regs.rejectField_temperature_chken (r : Regs) : (r.rejectField .temperature).chken = r.chken := rfl
@[simp] theorem Regs.rejectField_temperature_poly (r : Regs) : (r.rejectField .temperature).poly = r.poly := rfl
@[simp] theorem Regs.rejectField_temperature_init (r : Regs) : (r.rejectField .temperature).init = r.init := rfl
@[simp] theorem Regs.rejectField_temperature_crc (r : Regs) : (r.rejectField .temperature).crc = r.crc := rfl
@[simp] theorem Regs.rejectField_temperature_matched (r : Regs) : (r.rejectField .temperature).matched = r.matched := rfl
@[simp] theorem Regs.rejectField_temperature_tvalid (r : Regs) : (r.rejectField .temperature).tvalid = false := rfl
@[simp] theorem Regs.rejectField_temperature_hvalid (r : Regs) : (r.rejectField .temperature).hvalid = r.hvalid := rfl
@[simp] theorem Regs.rejectField_temperature_tchkerr (r : Regs) : (r.rejectField .temperature).tchkerr = true := rfl
@[simp] theorem Regs.rejectField_temperature_hchkerr (r : Regs) : (r.rejectField .temperature).hchkerr = r.hchkerr := rfl
@[simp] theorem Regs.rejectField_temperature_rtvalid (r : Regs) : (r.rejectField .temperature).rtvalid = r.rtvalid := rfl
@[simp] theorem Regs.rejectField_temperature_rhvalid (r : Regs) : (r.rejectField .temperature).rhvalid = r.rhvalid := rfl
@[simp] theorem Regs.rejectField_temperature_converr (r : Regs) : (r.rejectField .temperature).converr = r.converr := rfl
@[simp] theorem Regs.rejectField_temperature_illcmd (r : Regs) : (r.rejectField .temperature).illcmd = r.illcmd := rfl
@[simp] theorem Regs.rejectField_temperature_rawt (r : Regs) : (r.rejectField .temperature).rawt = r.rawt := rfl
@[simp] theorem Regs.rejectField_temperature_rawh (r : Regs) : (r.rejectField .temperature).rawh = r.rawh := rfl
@[simp] theorem Regs.rejectField_temperature_rest (r : Regs) : (r.rejectField .temperature).rest = r.rest := rfl
@[simp] theorem Regs.rejectField_temperature_resh (r : Regs) : (r.rejectField .temperature).resh = r.resh := rfl
@[simp] theorem Regs.rejectField_temperature_lastcrc (r : Regs) : (r.rejectField .temperature).lastcrc = r.lastcrc := rfl

@[simp] theorem Regs.clearResult_temperature_chken (r : Regs) : (r.clearResult .temperature).chken = r.chken := rfl
@[simp] theorem Regs.clearResult_temperature_poly (r : Regs) : (r.clearResult .temperature).poly = r.poly := rfl
@[simp] theorem Regs.clearResult_temperature_init (r : Regs) : (r.clearResult .temperature).init = r.init := rfl
@[simp] theorem Regs.clearResult_temperature_crc (r : Regs) : (r.clearResult .temperature).crc = r.crc := rfl
@[simp] theorem Regs.clearResult_temperature_matched (r : Regs) : (r.clearResult .temperature).matched = r.matched := rfl
@[simp] theorem Regs.clearResult_temperature_tvalid (r : Regs) : (r.clearResult .temperature).tvalid = r.tvalid := rfl
@[simp] theorem Regs.clearResult_temperature_hvalid (r : Regs) : (r.clearResult .temperature).hvalid = r.hvalid := rfl
@[simp] theorem Regs.clearResult_temperature_tchkerr (r : Regs) : (r.clearResult .temperature).tchkerr = r.tchkerr := rfl
@[simp] theorem Regs.clearResult_temperature_hchkerr (r : Regs) : (r.clearResult .temperature).hchkerr = r.hchkerr := rfl
@[simp] theorem Regs.clearResult_temperature_rtvalid (r : Regs) : (r.clearResult .temperature).rtvalid = false := rfl
@[simp] theorem Regs.clearResult_temperature_rhvalid (r : Regs) : (r.clearResult .temperature).rhvalid = r.rhvalid := rfl
@[simp] theorem Regs.clearResult_temperature_converr (r : Regs) : (r.clearResult .temperature).converr = r.converr := rfl
@[simp] theorem Regs.clearResult_temperature_illcmd (r : Regs) : (r.clearResult .temperature).illcmd = r.illcmd := rfl
@[simp] theorem Regs.clearResult_temperature_rawt (r : Regs) : (r.clearResult .temperature).rawt = r.rawt := rfl
@[simp] theorem Regs.clearResult_temperature_rawh (r : Regs) : (r.clearResult .temperature).rawh = r.rawh := rfl
@[simp] theorem Regs.clearResult_temperature_rest (r : Regs) : (r.clearResult .temperature).rest = r.rest := rfl
@[simp] theorem Regs.clearResult_temperature_resh (r : Regs) : (r.clearResult .temperature).resh = r.resh := rfl
@[simp] theorem Regs.clearResult_temperature_lastcrc (r : Regs) : (r.clearResult .temperature).lastcrc = r.lastcrc := rfl

@[simp] theorem Regs.storeResult_temperature_chken (r : Regs) (v : Word) : (r.storeResult .temperature v).chken = r.chken := rfl
@[simp] theorem Regs.storeResult_temperature_poly (r : Regs) (v : Word) : (r.storeResult .temperature v).poly = r.poly := rfl
@[simp] theorem Regs.storeResult_temperature_init (r : Regs) (v : Word) : (r.storeResult .temperature v).init = r.init := rfl
@[simp] theorem Regs.storeResult_temperature_crc (r : Regs) (v : Word) : (r.storeResult .temperature v).crc = r.crc := rfl
@[simp] theorem Regs.storeResult_temperature_matched (r : Regs) (v : Word) : (r.storeResult .temperature v).matched = r.matched := rfl
@[simp] theorem Regs.storeResult_temperature_tvalid (r : Regs) (v : Word) : (r.storeResult .temperature v).tvalid = r.tvalid := rfl
@[simp] theorem Regs.storeResult_temperature_hvalid (r : Regs) (v : Word) : (r.storeResult .temperature v).hvalid = r.hvalid := rfl
@[simp] theorem Regs.storeResult_temperature_tchkerr (r : Regs) (v : Word) : (r.storeResult .temperature v).tchkerr = r.tchkerr := rfl
@[simp] theorem Regs.storeResult_temperature_hchkerr (r : Regs) (v : Word) : (r.storeResult .temperature v).hchkerr = r.hchkerr := rfl
@[simp] theorem Regs.storeResult_temperature_rtvalid (r : Regs) (v : Word) : (r.storeResult .temperature v).rtvalid = true := rfl
@[simp] theorem Regs.storeResult_temperature_rhvalid (r : Regs) (v : Word) : (r.storeResult .temperature v).rhvalid = r.rhvalid := rfl
@[simp] theorem Regs.storeResult_temperature_converr (r : Regs) (v : Word) : (r.storeResult .temperature v).converr = r.converr := rfl
@[simp] theorem Regs.storeResult_temperature_illcmd (r : Regs) (v : Word) : (r.storeResult .temperature v).illcmd = r.illcmd := rfl
@[simp] theorem Regs.storeResult_temperature_rawt (r : Regs) (v : Word) : (r.storeResult .temperature v).rawt = r.rawt := rfl
@[simp] theorem Regs.storeResult_temperature_rawh (r : Regs) (v : Word) : (r.storeResult .temperature v).rawh = r.rawh := rfl
@[simp] theorem Regs.storeResult_temperature_rest (r : Regs) (v : Word) : (r.storeResult .temperature v).rest = v := rfl
@[simp] theorem Regs.storeResult_temperature_resh (r : Regs) (v : Word) : (r.storeResult .temperature v).resh = r.resh := rfl
@[simp] theorem Regs.storeResult_temperature_lastcrc (r : Regs) (v : Word) : (r.storeResult .temperature v).lastcrc = r.lastcrc := rfl

@[simp] theorem Regs.acceptField_humidity_chken (r : Regs) (raw : Half) : (r.acceptField .humidity raw).chken = r.chken := rfl
@[simp] theorem Regs.acceptField_humidity_poly (r : Regs) (raw : Half) : (r.acceptField .humidity raw).poly = r.poly := rfl
@[simp] theorem Regs.acceptField_humidity_init (r : Regs) (raw : Half) : (r.acceptField .humidity raw).init = r.init := rfl
@[simp] theorem Regs.acceptField_humidity_crc (r : Regs) (raw : Half) : (r.acceptField .humidity raw).crc = r.crc := rfl
@[simp] theorem Regs.acceptField_humidity_matched (r : Regs) (raw : Half) : (r.acceptField .humidity raw).matched = r.matched := rfl
@[simp] theorem Regs.acceptField_humidity_tvalid (r : Regs) (raw : Half) : (r.acceptField .humidity raw).tvalid = r.tvalid := rfl
@[simp] theorem Regs.acceptField_humidity_hvalid (r : Regs) (raw : Half) : (r.acceptField .humidity raw).hvalid = true := rfl
@[simp] theorem Regs.acceptField_humidity_tchkerr (r : Regs) (raw : Half) : (r.acceptField .humidity raw).tchkerr = r.tchkerr := rfl
@[simp] theorem Regs.acceptField_humidity_hchkerr (r : Regs) (raw : Half) : (r.acceptField .humidity raw).hchkerr = false := rfl
@[simp] theorem Regs.acceptField_humidity_rtvalid (r : Regs) (raw : Half) : (r.acceptField .humidity raw).rtvalid = r.rtvalid := rfl
@[simp] theorem Regs.acceptField_humidity_rhvalid (r : Regs) (raw : Half) : (r.acceptField .humidity raw).rhvalid = r.rhvalid := rfl
@[simp] theorem Regs.acceptField_humidity_converr (r : Regs) (raw : Half) : (r.acceptField .humidity raw).converr = r.converr := rfl
@[simp] theorem Regs.acceptField_humidity_illcmd (r : Regs) (raw : Half) : (r.acceptField .humidity raw).illcmd = r.illcmd := rfl
@[simp] theorem Regs.acceptField_humidity_rawt (r : Regs) (raw : Half) : (r.acceptField .humidity raw).rawt = r.rawt := rfl
@[simp] theorem Regs.acceptField_humidity_rawh (r : Regs) (raw : Half) : (r.acceptField .humidity raw).rawh = raw := rfl
@[simp] theorem Regs.acceptField_humidity_rest (r : Regs) (raw : Half) : (r.acceptField .humidity raw).rest = r.rest := rfl
@[simp] theorem Regs.acceptField_humidity_resh (r : Regs) (raw : Half) : (r.acceptField .humidity raw).resh = r.resh := rfl
@[simp] theorem Regs.acceptField_humidity_lastcrc (r : Regs) (raw : Half) : (r.acceptField .humidity raw).lastcrc = r.lastcrc := rfl

@[simp] theorem Regs.rejectField_humidity_chken (r : Regs) : (r.rejectField .humidity).chken = r.chken := rfl
@[simp] theorem Regs.rejectField_humidity_poly (r : Regs) : (r.rejectField .humidity).poly = r.poly := rfl
@[simp] theorem Regs.rejectField_humidity_init (r : Regs) : (r.rejectField .humidity).init = r.init := rfl
@[simp] theorem Regs.rejectField_humidity_crc (r : Regs) : (r.rejectField .humidity).crc = r.crc := rfl
@[simp] theorem Regs.rejectField_humidity_matched (r : Regs) : (r.rejectField .humidity).matched = r.matched := rfl
@[simp] theorem Regs.rejectField_humidity_tvalid (r : Regs) : (r.rejectField .humidity).tvalid = r.tvalid := rfl
@[simp] theorem Regs.rejectField_humidity_hvalid (r : Regs) : (r.rejectField .humidity).hvalid = false := rfl
@[simp] theorem Regs.rejectField_humidity_tchkerr (r : Regs) : (r.rejectField .humidity).tchkerr = r.tchkerr := rfl
@[simp] theorem Regs.rejectField_humidity_hchkerr (r : Regs) : (r.rejectField .humidity).hchkerr = true := rfl
@[simp] theorem Regs.rejectField_humidity_rtvalid (r : Regs) : (r.rejectField .humidity).rtvalid = r.rtvalid := rfl
@[simp] theorem Regs.rejectField_humidity_rhvalid (r : Regs) : (r.rejectField .humidity).rhvalid = r.rhvalid := rfl
@[simp] theorem Regs.rejectField_humidity_converr (r : Regs) : (r.rejectField .humidity).converr = r.converr := rfl
@[simp] theorem Regs.rejectField_humidity_illcmd (r : Regs) : (r.rejectField .humidity).illcmd = r.illcmd := rfl
@[simp] theorem Regs.rejectField_humidity_rawt (r : Regs) : (r.rejectField .humidity).rawt = r.rawt := rfl
@[simp] theorem Regs.rejectField_humidity_rawh (r : Regs) : (r.rejectField .humidity).rawh = r.rawh := rfl
@[simp] theorem Regs.rejectField_humidity_rest (r : Regs) : (r.rejectField .humidity).rest = r.rest := rfl
@[simp] theorem Regs.rejectField_humidity_resh (r : Regs) : (r.rejectField .humidity).resh = r.resh := rfl
@[simp] theorem Regs.rejectField_humidity_lastcrc (r : Regs) : (r.rejectField .humidity).lastcrc = r.lastcrc := rfl

@[simp] theorem Regs.clearResult_humidity_chken (r : Regs) : (r.clearResult .humidity).chken = r.chken := rfl
@[simp] theorem Regs.clearResult_humidity_poly (r : Regs) : (r.clearResult .humidity).poly = r.poly := rfl
@[simp] theorem Regs.clearResult_humidity_init (r : Regs) : (r.clearResult .humidity).init = r.init := rfl
@[simp] theorem Regs.clearResult_humidity_crc (r : Regs) : (r.clearResult .humidity).crc = r.crc := rfl
@[simp] theorem Regs.clearResult_humidity_matched (r : Regs) : (r.clearResult .humidity).matched = r.matched := rfl
@[simp] theorem Regs.clearResult_humidity_tvalid (r : Regs) : (r.clearResult .humidity).tvalid = r.tvalid := rfl
@[simp] theorem Regs.clearResult_humidity_hvalid (r : Regs) : (r.clearResult .humidity).hvalid = r.hvalid := rfl
@[simp] theorem Regs.clearResult_humidity_tchkerr (r : Regs) : (r.clearResult .humidity).tchkerr = r.tchkerr := rfl
@[simp] theorem Regs.clearResult_humidity_hchkerr (r : Regs) : (r.clearResult .humidity).hchkerr = r.hchkerr := rfl
@[simp] theorem Regs.clearResult_humidity_rtvalid (r : Regs) : (r.clearResult .humidity).rtvalid = r.rtvalid := rfl
@[simp] theorem Regs.clearResult_humidity_rhvalid (r : Regs) : (r.clearResult .humidity).rhvalid = false := rfl
@[simp] theorem Regs.clearResult_humidity_converr (r : Regs) : (r.clearResult .humidity).converr = r.converr := rfl
@[simp] theorem Regs.clearResult_humidity_illcmd (r : Regs) : (r.clearResult .humidity).illcmd = r.illcmd := rfl
@[simp] theorem Regs.clearResult_humidity_rawt (r : Regs) : (r.clearResult .humidity).rawt = r.rawt := rfl
@[simp] theorem Regs.clearResult_humidity_rawh (r : Regs) : (r.clearResult .humidity).rawh = r.rawh := rfl
@[simp] theorem Regs.clearResult_humidity_rest (r : Regs) : (r.clearResult .humidity).rest = r.rest := rfl
@[simp] theorem Regs.clearResult_humidity_resh (r : Regs) : (r.clearResult .humidity).resh = r.resh := rfl
@[simp] theorem Regs.clearResult_humidity_lastcrc (r : Regs) : (r.clearResult .humidity).lastcrc = r.lastcrc := rfl

@[simp] theorem Regs.storeResult_humidity_chken (r : Regs) (v : Word) : (r.storeResult .humidity v).chken = r.chken := rfl
@[simp] theorem Regs.storeResult_humidity_poly (r : Regs) (v : Word) : (r.storeResult .humidity v).poly = r.poly := rfl
@[simp] theorem Regs.storeResult_humidity_init (r : Regs) (v : Word) : (r.storeResult .humidity v).init = r.init := rfl
@[simp] theorem Regs.storeResult_humidity_crc (r : Regs) (v : Word) : (r.storeResult .humidity v).crc = r.crc := rfl
@[simp] theorem Regs.storeResult_humidity_matched (r : Regs) (v : Word) : (r.storeResult .humidity v).matched = r.matched := rfl
@[simp] theorem Regs.storeResult_humidity_tvalid (r : Regs) (v : Word) : (r.storeResult .humidity v).tvalid = r.tvalid := rfl
@[simp] theorem Regs.storeResult_humidity_hvalid (r : Regs) (v : Word) : (r.storeResult .humidity v).hvalid = r.hvalid := rfl
@[simp] theorem Regs.storeResult_humidity_tchkerr (r : Regs) (v : Word) : (r.storeResult .humidity v).tchkerr = r.tchkerr := rfl
@[simp] theorem Regs.storeResult_humidity_hchkerr (r : Regs) (v : Word) : (r.storeResult .humidity v).hchkerr = r.hchkerr := rfl
@[simp] theorem Regs.storeResult_humidity_rtvalid (r : Regs) (v : Word) : (r.storeResult .humidity v).rtvalid = r.rtvalid := rfl
@[simp] theorem Regs.storeResult_humidity_rhvalid (r : Regs) (v : Word) : (r.storeResult .humidity v).rhvalid = true := rfl
@[simp] theorem Regs.storeResult_humidity_converr (r : Regs) (v : Word) : (r.storeResult .humidity v).converr = r.converr := rfl
@[simp] theorem Regs.storeResult_humidity_illcmd (r : Regs) (v : Word) : (r.storeResult .humidity v).illcmd = r.illcmd := rfl
@[simp] theorem Regs.storeResult_humidity_rawt (r : Regs) (v : Word) : (r.storeResult .humidity v).rawt = r.rawt := rfl
@[simp] theorem Regs.storeResult_humidity_rawh (r : Regs) (v : Word) : (r.storeResult .humidity v).rawh = r.rawh := rfl
@[simp] theorem Regs.storeResult_humidity_rest (r : Regs) (v : Word) : (r.storeResult .humidity v).rest = r.rest := rfl
@[simp] theorem Regs.storeResult_humidity_resh (r : Regs) (v : Word) : (r.storeResult .humidity v).resh = v := rfl
@[simp] theorem Regs.storeResult_humidity_lastcrc (r : Regs) (v : Word) : (r.storeResult .humidity v).lastcrc = r.lastcrc := rfl

@[simp] theorem Regs.setConverr_chken (r : Regs) : (r.setConverr).chken = r.chken := rfl
@[simp] theorem Regs.setConverr_poly (r : Regs) : (r.setConverr).poly = r.poly := rfl
@[simp] theorem Regs.setConverr_init (r : Regs) : (r.setConverr).init = r.init := rfl
@[simp] theorem Regs.setConverr_crc (r : Regs) : (r.setConverr).crc = r.crc := rfl
@[simp] theorem Regs.setConverr_matched (r : Regs) : (r.setConverr).matched = r.matched := rfl
@[simp] theorem Regs.setConverr_tvalid (r : Regs) : (r.setConverr).tvalid = r.tvalid := rfl
@[simp] theorem Regs.setConverr_hvalid (r : Regs) : (r.setConverr).hvalid = r.hvalid := rfl
@[simp] theorem Regs.setConverr_tchkerr (r : Regs) : (r.setConverr).tchkerr = r.tchkerr := rfl
@[simp] theorem Regs.setConverr_hchkerr (r : Regs) : (r.setConverr).hchkerr = r.hchkerr := rfl
@[simp] theorem Regs.setConverr_rtvalid (r : Regs) : (r.setConverr).rtvalid = r.rtvalid := rfl
@[simp] theorem Regs.setConverr_rhvalid (r : Regs) : (r.setConverr).rhvalid = r.rhvalid := rfl
@[simp] theorem Regs.setConverr_converr (r : Regs) : (r.setConverr).converr = true := rfl
@[simp] theorem Regs.setConverr_illcmd (r : Regs) : (r.setConverr).illcmd = r.illcmd := rfl
@[simp] theorem Regs.setConverr_rawt (r : Regs) : (r.setConverr).rawt = r.rawt := rfl
@[simp] theorem Regs.setConverr_rawh (r : Regs) : (r.setConverr).rawh = r.rawh := rfl
@[simp] theorem Regs.setConverr_rest (r : Regs) : (r.setConverr).rest = r.rest := rfl
@[simp] theorem Regs.setConverr_resh (r : Regs) : (r.setConverr).resh = r.resh := rfl
@[simp] theorem Regs.setConverr_lastcrc (r : Regs) : (r.setConverr).lastcrc = r.lastcrc := rfl

@[simp] theorem Regs.setIllcmd_chken (r : Regs) : (r.setIllcmd).chken = r.chken := rfl
@[simp] theorem Regs.setIllcmd_poly (r : Regs) : (r.setIllcmd).poly = r.poly := rfl
@[simp] theorem Regs.setIllcmd_init (r : Regs) : (r.setIllcmd).init = r.init := rfl
@[simp] theorem Regs.setIllcmd_crc (r : Regs) : (r.setIllcmd).crc = r.crc := rfl
@[simp] theorem Regs.setIllcmd_matched (r : Regs) : (r.setIllcmd).matched = r.matched := rfl
@[simp] theorem Regs.setIllcmd_tvalid (r : Regs) : (r.setIllcmd).tvalid = r.tvalid := rfl
@[simp] theorem Regs.setIllcmd_hvalid (r : Regs) : (r.setIllcmd).hvalid = r.hvalid := rfl
@[simp] theorem Regs.setIllcmd_tchkerr (r : Regs) : (r.setIllcmd).tchkerr = r.tchkerr := rfl
@[simp] theorem Regs.setIllcmd_hchkerr (r : Regs) : (r.setIllcmd).hchkerr = r.hchkerr := rfl
@[simp] theorem Regs.setIllcmd_rtvalid (r : Regs) : (r.setIllcmd).rtvalid = r.rtvalid := rfl
@[simp] theorem Regs.setIllcmd_rhvalid (r : Regs) : (r.setIllcmd).rhvalid = r.rhvalid := rfl
@[simp] theorem Regs.setIllcmd_converr (r : Regs) : (r.setIllcmd).converr = r.converr := rfl
@[simp] theorem Regs.setIllcmd_illcmd (r : Regs) : (r.setIllcmd).illcmd = true := rfl
@[simp] theorem Regs.setIllcmd_rawt (r : Regs) : (r.setIllcmd).rawt = r.rawt := rfl
@[simp] theorem Regs.setIllcmd_rawh (r : Regs) : (r.setIllcmd).rawh = r.rawh := rfl
@[simp] theorem Regs.setIllcmd_rest (r : Regs) : (r.setIllcmd).rest = r.rest := rfl
@[simp] theorem Regs.setIllcmd_resh (r : Regs) : (r.setIllcmd).resh = r.resh := rfl
@[simp] theorem Regs.setIllcmd_lastcrc (r : Regs) : (r.setIllcmd).lastcrc = r.lastcrc := rfl

@[simp] theorem Regs.clearSticky_chken (r : Regs) : (r.clearSticky).chken = r.chken := rfl
@[simp] theorem Regs.clearSticky_poly (r : Regs) : (r.clearSticky).poly = r.poly := rfl
@[simp] theorem Regs.clearSticky_init (r : Regs) : (r.clearSticky).init = r.init := rfl
@[simp] theorem Regs.clearSticky_crc (r : Regs) : (r.clearSticky).crc = r.crc := rfl
@[simp] theorem Regs.clearSticky_matched (r : Regs) : (r.clearSticky).matched = r.matched := rfl
@[simp] theorem Regs.clearSticky_tvalid (r : Regs) : (r.clearSticky).tvalid = r.tvalid := rfl
@[simp] theorem Regs.clearSticky_hvalid (r : Regs) : (r.clearSticky).hvalid = r.hvalid := rfl
@[simp] theorem Regs.clearSticky_tchkerr (r : Regs) : (r.clearSticky).tchkerr = r.tchkerr := rfl
@[simp] theorem Regs.clearSticky_hchkerr (r : Regs) : (r.clearSticky).hchkerr = r.hchkerr := rfl
@[simp] theorem Regs.clearSticky_rtvalid (r : Regs) : (r.clearSticky).rtvalid = r.rtvalid := rfl
@[simp] theorem Regs.clearSticky_rhvalid (r : Regs) : (r.clearSticky).rhvalid = r.rhvalid := rfl
@[simp] theorem Regs.clearSticky_converr (r : Regs) : (r.clearSticky).converr = false := rfl
@[simp] theorem Regs.clearSticky_illcmd (r : Regs) : (r.clearSticky).illcmd = false := rfl
@[simp] theorem Regs.clearSticky_rawt (r : Regs) : (r.clearSticky).rawt = r.rawt := rfl
@[simp] theorem Regs.clearSticky_rawh (r : Regs) : (r.clearSticky).rawh = r.rawh := rfl
@[simp] theorem Regs.clearSticky_rest (r : Regs) : (r.clearSticky).rest = r.rest := rfl
@[simp] theorem Regs.clearSticky_resh (r : Regs) : (r.clearSticky).resh = r.resh := rfl
@[simp] theorem Regs.clearSticky_lastcrc (r : Regs) : (r.clearSticky).lastcrc = r.lastcrc := rfl

@[simp] theorem State.mapRegs_regs (s : State) (f : Regs → Regs) : (s.mapRegs f).regs = f s.regs := rfl
@[simp] theorem State.mapRegs_resetAsserted (s : State) (f : Regs → Regs) : (s.mapRegs f).resetAsserted = s.resetAsserted := rfl
@[simp] theorem State.mapRegs_pending (s : State) (f : Regs → Regs) : (s.mapRegs f).pending = s.pending := rfl
@[simp] theorem State.mapRegs_response (s : State) (f : Regs → Regs) : (s.mapRegs f).response = s.response := rfl

@[simp] theorem State.resetRegs_regs (s : State) : (s.resetRegs).regs = Regs.reset := rfl
@[simp] theorem State.resetRegs_resetAsserted (s : State) : (s.resetRegs).resetAsserted = s.resetAsserted := rfl
@[simp] theorem State.resetRegs_pending (s : State) : (s.resetRegs).pending = s.pending := rfl
@[simp] theorem State.resetRegs_response (s : State) : (s.resetRegs).response = s.response := rfl

@[simp] theorem State.respond_regs (s : State) (x : Response) : (s.respond x).regs = s.regs := rfl
@[simp] theorem State.respond_resetAsserted (s : State) (x : Response) : (s.respond x).resetAsserted = s.resetAsserted := rfl
@[simp] theorem State.respond_pending (s : State) (x : Response) : (s.respond x).pending = s.pending := rfl
@[simp] theorem State.respond_response (s : State) (x : Response) : (s.respond x).response = some x := rfl

@[simp] theorem State.raiseAccessError_regs (s : State) (offset : Int) : (s.raiseAccessError offset).regs = s.regs := rfl
@[simp] theorem State.raiseAccessError_resetAsserted (s : State) (offset : Int) : (s.raiseAccessError offset).resetAsserted = s.resetAsserted := rfl
@[simp] theorem State.raiseAccessError_pending (s : State) (offset : Int) : (s.raiseAccessError offset).pending = s.pending := rfl
@[simp] theorem State.raiseAccessError_response (s : State) (offset : Int) : (s.raiseAccessError offset).response = some (.accessError offset) := rfl

end Sys2Proof.Machine
end

