-- ==== Sys2Proof/Laws/Step.lean ====
section
/-!
SUPPORT. What the shared operations, the commands and a step can do, each said once: later proofs cite these lemmas instead
of unfolding the machine.
-/

namespace Sys2Proof.Machine

/-! ### Commands act on the registers alone (R45) -/

/-- The effect of a command on the registers. -/
def effect : Instr → Regs → Regs
  | .nop, r => r
  | .crcinit, r => r.setCrc r.init
  | .crcbyte b, r => r.setCrc (crc8Step r.crc b r.poly)
  | .crccmp b, r => r.setMatch (crcMatches r.crc b)
  | .valt d0 d1 c, r => r.validateField .temperature d0 d1 c
  | .valh d0 d1 c, r => r.validateField .humidity d0 d1 c
  | .convat, r => r.convertLatched .temperature fAT
  | .convah, r => r.convertLatched .humidity fAH
  | .convbt, r => r.convertLatched .temperature fBT
  | .convbh, r => r.convertLatched .humidity fBH
  | .convrat raw, r => r.convertOperand .temperature fAT raw
  | .convrah raw, r => r.convertOperand .humidity fAH raw
  | .convrbt raw, r => r.convertOperand .temperature fBT raw
  | .convrbh raw, r => r.convertOperand .humidity fBH raw
  | .clrstat, r => r.clearSticky
  | .sreset, _ => Regs.reset

/-- Every command answers a next state, and only the registers differ in it. -/
theorem exec_eq (i : Instr) (s : State) : exec i s = .next (s.mapRegs (effect i)) := by
  cases i <;> rfl

/-- A sequence of commands always completes. -/
theorem execAll_next (is : List Instr) (s : State) : ∃ t, execAll is s = .next t := by
  induction is generalizing s with
  | nil => exact ⟨s, rfl⟩
  | cons i is ih =>
    obtain ⟨t, h⟩ := ih (s.mapRegs (effect i))
    exact ⟨t, by simp only [execAll, exec_eq, h]⟩

/-- The outcome of a command, read backwards. -/
theorem exec_next {i : Instr} {s t : State} (h : exec i s = .next t) : t = s.mapRegs (effect i) := by
  rw [exec_eq] at h
  exact (Host.Outcome.next.inj h).symm

/-- A field's validation, when it passes: the CRC and the raw value recorded, the verdict, the stale result (R124, R125). -/
theorem validateField_pass {r : Regs} {q : Quantity} {d0 d1 c : Byte}
    (h : fieldPasses r.chken (fieldCrc r d0 d1) c = true) :
    r.validateField q d0 d1 c
      = ((r.setLastCrc (fieldCrc r d0 d1)).acceptField q (rawOfField d0 d1)).clearResult q := by
  simp [Regs.validateField, h]

/-- A field's validation, when it fails: the latch is kept (R124, R125). -/
theorem validateField_fail {r : Regs} {q : Quantity} {d0 d1 c : Byte}
    (h : fieldPasses r.chken (fieldCrc r d0 d1) c = false) :
    r.validateField q d0 d1 c = ((r.setLastCrc (fieldCrc r d0 d1)).rejectField q).clearResult q := by
  simp [Regs.validateField, h]

/-- A field passes exactly when checksum mode is off or the CRC is equal (R121, R123). -/
theorem fieldPasses_iff {chken : Bool} {computed c : Byte} :
    fieldPasses chken computed c = true ↔ chken = false ∨ computed = c := by
  cases chken <;> simp [fieldPasses]

/-- A gated conversion of a valid field stores the latch's conversion (R150). -/
theorem convertLatched_valid {r : Regs} {q : Quantity} {f : Half → Int} (h : r.valid q = true) :
    r.convertLatched q f = r.storeResult q (toS32 (f (r.raw q))) := by
  simp [Regs.convertLatched, h]

/-- A gated conversion of a field that is not valid is refused (R150). -/
theorem convertLatched_refused {r : Regs} {q : Quantity} {f : Half → Int} (h : r.valid q = false) :
    r.convertLatched q f = (r.clearResult q).setConverr := by
  simp [Regs.convertLatched, h]

/-- The two outcomes of a gated conversion (R150). -/
theorem convertLatched_cases (r : Regs) (q : Quantity) (f : Half → Int) :
    (r.valid q = true ∧ r.convertLatched q f = r.storeResult q (toS32 (f (r.raw q)))) ∨
      (r.valid q = false ∧ r.convertLatched q f = (r.clearResult q).setConverr) := by
  cases h : r.valid q
  · exact .inr ⟨rfl, convertLatched_refused h⟩
  · exact .inl ⟨rfl, convertLatched_valid h⟩

/-- The two outcomes of a validation (R124, R125). -/
theorem validateField_cases (r : Regs) (q : Quantity) (d0 d1 c : Byte) :
    (fieldPasses r.chken (fieldCrc r d0 d1) c = true ∧ r.validateField q d0 d1 c
        = ((r.setLastCrc (fieldCrc r d0 d1)).acceptField q (rawOfField d0 d1)).clearResult q) ∨
      (fieldPasses r.chken (fieldCrc r d0 d1) c = false ∧ r.validateField q d0 d1 c
        = ((r.setLastCrc (fieldCrc r d0 d1)).rejectField q).clearResult q) := by
  cases h : fieldPasses r.chken (fieldCrc r d0 d1) c
  · exact .inr ⟨rfl, validateField_fail h⟩
  · exact .inl ⟨rfl, validateField_pass h⟩

/-! ### The converter's results -/

/-- The mask as a number (R141). -/
theorem maskA_toNat (raw : Half) : (maskA raw).toNat = raw.toNat / 4 * 4 := by
  have h : maskA raw = (raw >>> 2) <<< 2 := by
    apply BitVec.eq_of_getElem_eq
    intro i hi
    unfold maskA
    interval_cases i <;> simp
  rw [h, BitVec.toNat_shiftLeft, BitVec.toNat_ushiftRight, Nat.shiftRight_eq_div_pow, Nat.shiftLeft_eq]
  have := raw.isLt
  omega

/-- An integer in s32's range is recovered from its pattern (R9, R160). -/
theorem toS32_toInt {v : Int} (h : -2 ^ 31 ≤ v) (h' : v < 2 ^ 31) : (toS32 v).toInt = v := by
  rw [toS32, BitVec.toInt_ofInt]
  exact Int.bmod_eq_of_le (by omega) (by omega)

/-! ### The window -/

/-- A register stands at its own offset (R23). -/
theorem regAt_regOffset (g : Reg) : regAt (regOffset g) = some g := by
  cases g <;> rfl

/-- The register found at an offset has that offset (R23). -/
theorem regAt_some {offset : Nat} {g : Reg} (h : regAt offset = some g) : regOffset g = offset := by
  simpa using List.find?_some h

/-- An access by its bus address stands at that address's distance from `BASE` (R60, R64). -/
theorem memRead_offset (off n : Nat) : memRead (Config.base + off) n = .read off n := by
  simp [memRead]

/-- The same for a write; its lanes are the value's bytes (R61). -/
theorem memWrite_offset (off n v : Nat) : memWrite (Config.base + off) n v = .write off (lanes n v) := by
  simp [memWrite]

/-- A write's size is the `n` of `MemWrite(addr, n, v)` (R10). -/
theorem memWrite_size (addr n v : Nat) : (memWrite addr n v).size = n := lanes_length n v

/-! ### A step -/

/-- A legal word written to CMD executes its command (R66, R80). -/
theorem writeWindow_command {v : Word} {i : Instr} (h : decode v = .ok i) (s : State) :
    writeWindow 0 v s = .next (s.mapRegs (effect i)) := by
  show execWord v s = _
  simp only [execWord, h, exec_eq]

/-- An illegal word written to CMD sets ILLCMD (R89). -/
theorem writeWindow_illegal {v : Word} {e : DecodeError} (h : decode v = .error e) (s : State) :
    writeWindow 0 v s = .next (s.mapRegs Regs.setIllcmd) := by
  show execWord v s = _
  simp only [execWord, h]

/-- A write elsewhere writes the register's field, or nothing (R66). -/
theorem writeWindow_other {offset : Nat} (h : offset ≠ 0) (v : Word) (s : State) :
    writeWindow offset v s = .next (s.mapRegs fun r => r.writeReg (regAt offset) v) := by
  unfold writeWindow
  split
  · next hg => exact absurd (regAt_some hg).symm h
  · rfl

/-- What one access does: it is refused, it is answered with the error response, it is a read or it is a write. -/
theorem performAccess_eq (a : Access) (s : State) : performAccess a s =
    if a.inWindow = false then .refused (.outsideWindow a.offset)
    else if s.resetAsserted = true then .refused (.accessDuringReset a.offset)
    else if a.wellSized = false then .fault (.accessError a.offset)
    else match a with
      | .read offset _ => .next (s.respond (.value (s.regs.readWindow offset.toNat)))
      | .write offset data => writeWindow offset.toNat (wordOfLanes data) (s.respond .written) := by
  unfold performAccess
  cases a.inWindow <;> cases s.resetAsserted <;> cases a.wellSized <;> (simp; try (cases a <;> rfl))

/-- Inside the window (R60, R70). -/
theorem Access.inWindow_iff (a : Access) : a.inWindow = true ↔ 0 ≤ a.offset ∧ a.offset < 64 := by
  simp only [Access.inWindow, Bool.and_eq_true, decide_eq_true_eq]
  rfl

/-- Four bytes, aligned (R63, R64). -/
theorem Access.wellSized_iff (a : Access) : a.wellSized = true ↔ a.size = 4 ∧ a.offset % 4 = 0 := by
  simp only [Access.wellSized, Bool.and_eq_true, decide_eq_true_eq, beq_iff_eq]

/-- The step of an access is the access, its fault answered. -/
theorem step_access {s : State} {a : Access} {rest : List Event} (h : s.pending = .access a :: rest) :
    step s = answerFault { s with pending := rest } (performAccess a { s with pending := rest }) := by
  simp only [step, performNext, h, performEvent]

/-- An accepted write goes to the window, answered as completed (R66). -/
theorem performAccess_write {offset : Int} {data : List Byte} {s : State} (hw : (Access.write offset data).inWindow = true)
    (hs : (Access.write offset data).wellSized = true) (hr : s.resetAsserted = false) :
    performAccess (.write offset data) s = writeWindow offset.toNat (wordOfLanes data) (s.respond .written) := by
  simp [performAccess_eq, hw, hs, hr]

/-- An accepted read is answered with the window's value (R65). -/
theorem performAccess_read {offset : Int} {size : Nat} {s : State} (hw : (Access.read offset size).inWindow = true)
    (hs : (Access.read offset size).wellSized = true) (hr : s.resetAsserted = false) :
    performAccess (.read offset size) s = .next (s.respond (.value (s.regs.readWindow offset.toNat))) := by
  simp [performAccess_eq, hw, hs, hr]

/-- An aligned 32-bit write in the window, at a place that is not CMD, writes the field there and completes (R66). -/
theorem step_registerWrite {s : State} {rest : List Event} {offset : Nat} {v : Word}
    (h : s.pending = .access (memWrite (Config.base + offset) 4 v.toNat) :: rest) (hr : s.resetAsserted = false)
    (h0 : 0 < offset) (hlt : offset < 64) (h4 : offset % 4 = 0) :
    step s = .next ((({ s with pending := rest } : State).respond .written).mapRegs
      fun r => r.writeReg (regAt offset) v) := by
  rw [memWrite_offset] at h
  have hw : (Access.write offset (lanes 4 v.toNat)).inWindow = true :=
    (Access.inWindow_iff _).mpr ⟨Int.natCast_nonneg _, Int.ofNat_lt.mpr hlt⟩
  have hs : (Access.write offset (lanes 4 v.toNat)).wellSized = true :=
    (Access.wellSized_iff _).mpr ⟨lanes_length 4 v.toNat, by show (offset : Int) % 4 = 0; omega⟩
  have hv : wordOfLanes (lanes 4 v.toNat) = v := wordOfLanes_wordLanes v
  rw [step_access h, performAccess_write (s := { s with pending := rest }) hw hs hr, hv]
  simp only [Int.toNat_natCast, writeWindow_other (Nat.ne_of_gt h0), answerFault]

/-- What a step can do, when it answers a next state. -/
inductive StepCase (s t : State) : Prop where
  /-- No event arrives: nothing changes (R202). -/
  | idle (h : s.pending = []) (ht : t = s)
  /-- The reset input is driven (R201). -/
  | resetInput (asserted : Bool) (rest : List Event) (h : s.pending = .resetInput asserted :: rest)
      (ht : t = driveReset asserted { s with pending := rest })
  /-- Power-up (R201). -/
  | powerUp (rest : List Event) (h : s.pending = .powerUp :: rest)
      (ht : t = ({ s with pending := rest } : State).resetRegs)
  /-- AccessError: only the answer (R181). -/
  | accessError (a : Access) (rest : List Event) (h : s.pending = .access a :: rest) (hw : a.inWindow = true)
      (hr : s.resetAsserted = false) (hs : a.wellSized = false)
      (ht : t = ({ s with pending := rest } : State).raiseAccessError a.offset)
  /-- A read: only the answer (R65). -/
  | read (offset : Int) (size : Nat) (rest : List Event) (h : s.pending = .access (.read offset size) :: rest)
      (hw : (Access.read offset size).inWindow = true) (hr : s.resetAsserted = false)
      (hs : (Access.read offset size).wellSized = true)
      (ht : t = ({ s with pending := rest } : State).respond (.value (s.regs.readWindow offset.toNat)))
  /-- A legal command (R80). -/
  | command (i : Instr) (data : List Byte) (rest : List Event) (h : s.pending = .access (.write 0 data) :: rest)
      (hr : s.resetAsserted = false) (hl : data.length = 4) (hd : decode (wordOfLanes data) = .ok i)
      (ht : t = (({ s with pending := rest } : State).respond .written).mapRegs (effect i))
  /-- An illegal word (R89). -/
  | illegal (data : List Byte) (rest : List Event) (h : s.pending = .access (.write 0 data) :: rest)
      (hr : s.resetAsserted = false) (hl : data.length = 4) (e : DecodeError) (hd : decode (wordOfLanes data) = .error e)
      (ht : t = (({ s with pending := rest } : State).respond .written).mapRegs Regs.setIllcmd)
  /-- A write elsewhere in the window (R66). -/
  | write (offset : Nat) (data : List Byte) (rest : List Event) (h : s.pending = .access (.write offset data) :: rest)
      (hr : s.resetAsserted = false) (hl : data.length = 4) (h0 : 0 < offset) (hlt : offset < 64) (h4 : offset % 4 = 0)
      (ht : t = (({ s with pending := rest } : State).respond .written).mapRegs
        fun r => r.writeReg (regAt offset) (wordOfLanes data))

/-- Every step that answers a next state is one of these. -/
theorem step_cases {s t : State} (hst : step s = .next t) : StepCase s t := by
  unfold step performNext at hst
  split at hst
  · next h => exact .idle h (Host.Outcome.next.inj hst).symm
  · next e rest h =>
    cases e with
    | resetInput asserted => exact .resetInput asserted rest h (Host.Outcome.next.inj hst).symm
    | powerUp => exact .powerUp rest h (Host.Outcome.next.inj hst).symm
    | access a =>
      simp only [performEvent, performAccess_eq] at hst
      split at hst
      · cases hst
      · next hw =>
        split at hst
        · cases hst
        · next hr =>
          have hw : a.inWindow = true := by simpa using hw
          have hr : s.resetAsserted = false := by simpa using hr
          split at hst
          · next hs => exact .accessError a rest h hw hr hs (Host.Outcome.next.inj hst).symm
          · next hs =>
            have hs : a.wellSized = true := by simpa using hs
            cases a with
            | read offset size => exact .read offset size rest h hw hr hs (Host.Outcome.next.inj hst).symm
            | write offset data =>
              obtain ⟨ho, hlt⟩ := (Access.inWindow_iff _).mp hw
              obtain ⟨hl, h4⟩ := (Access.wellSized_iff _).mp hs
              simp only [Access.offset, Access.size] at ho hlt hl h4
              obtain ⟨off, rfl⟩ := Int.eq_ofNat_of_zero_le ho
              simp only [Int.toNat_natCast] at hst
              rcases Nat.eq_zero_or_pos off with rfl | hpos
              · cases hd : decode (wordOfLanes data) with
                | ok i =>
                  rw [writeWindow_command hd] at hst
                  exact .command i data rest h hr hl hd (Host.Outcome.next.inj hst).symm
                | error e =>
                  rw [writeWindow_illegal hd] at hst
                  exact .illegal data rest h hr hl e hd (Host.Outcome.next.inj hst).symm
              · rw [writeWindow_other (by omega)] at hst
                exact .write off data rest h hr hl hpos (by omega) (by omega) (Host.Outcome.next.inj hst).symm

end Sys2Proof.Machine
end

