-- ==== Sys2Proof/Laws/Regs.lean ====
section
/-!
SUPPORT. What a step does to the registers alone, said once, and the fields that a validation and a conversion leave.
-/

namespace Sys2Proof.Machine

/-! ### Fields left by a validation (R124-R126) and by a conversion (R150, R155) -/

@[simp] theorem validateField_chken (r : Regs) (q : Quantity) (d0 d1 c : Byte) : (r.validateField q d0 d1 c).chken = r.chken := by
  rcases validateField_cases r q d0 d1 c with ⟨-, h⟩ | ⟨-, h⟩ <;> cases q <;> simp [h]

@[simp] theorem validateField_poly (r : Regs) (q : Quantity) (d0 d1 c : Byte) : (r.validateField q d0 d1 c).poly = r.poly := by
  rcases validateField_cases r q d0 d1 c with ⟨-, h⟩ | ⟨-, h⟩ <;> cases q <;> simp [h]

@[simp] theorem validateField_init (r : Regs) (q : Quantity) (d0 d1 c : Byte) : (r.validateField q d0 d1 c).init = r.init := by
  rcases validateField_cases r q d0 d1 c with ⟨-, h⟩ | ⟨-, h⟩ <;> cases q <;> simp [h]

@[simp] theorem validateField_crc (r : Regs) (q : Quantity) (d0 d1 c : Byte) : (r.validateField q d0 d1 c).crc = r.crc := by
  rcases validateField_cases r q d0 d1 c with ⟨-, h⟩ | ⟨-, h⟩ <;> cases q <;> simp [h]

@[simp] theorem validateField_matched (r : Regs) (q : Quantity) (d0 d1 c : Byte) : (r.validateField q d0 d1 c).matched = r.matched := by
  rcases validateField_cases r q d0 d1 c with ⟨-, h⟩ | ⟨-, h⟩ <;> cases q <;> simp [h]

@[simp] theorem validateField_converr (r : Regs) (q : Quantity) (d0 d1 c : Byte) : (r.validateField q d0 d1 c).converr = r.converr := by
  rcases validateField_cases r q d0 d1 c with ⟨-, h⟩ | ⟨-, h⟩ <;> cases q <;> simp [h]

@[simp] theorem validateField_illcmd (r : Regs) (q : Quantity) (d0 d1 c : Byte) : (r.validateField q d0 d1 c).illcmd = r.illcmd := by
  rcases validateField_cases r q d0 d1 c with ⟨-, h⟩ | ⟨-, h⟩ <;> cases q <;> simp [h]

@[simp] theorem validateField_rest (r : Regs) (q : Quantity) (d0 d1 c : Byte) : (r.validateField q d0 d1 c).rest = r.rest := by
  rcases validateField_cases r q d0 d1 c with ⟨-, h⟩ | ⟨-, h⟩ <;> cases q <;> simp [h]

@[simp] theorem validateField_resh (r : Regs) (q : Quantity) (d0 d1 c : Byte) : (r.validateField q d0 d1 c).resh = r.resh := by
  rcases validateField_cases r q d0 d1 c with ⟨-, h⟩ | ⟨-, h⟩ <;> cases q <;> simp [h]

@[simp] theorem validateField_lastcrc (r : Regs) (q : Quantity) (d0 d1 c : Byte) : (r.validateField q d0 d1 c).lastcrc = fieldCrc r d0 d1 := by
  rcases validateField_cases r q d0 d1 c with ⟨-, h⟩ | ⟨-, h⟩ <;> cases q <;> simp [h]

@[simp] theorem validateField_temperature_hvalid (r : Regs) (d0 d1 c : Byte) : (r.validateField .temperature d0 d1 c).hvalid = r.hvalid := by
  rcases validateField_cases r .temperature d0 d1 c with ⟨-, h⟩ | ⟨-, h⟩ <;> simp [h]

@[simp] theorem validateField_temperature_hchkerr (r : Regs) (d0 d1 c : Byte) : (r.validateField .temperature d0 d1 c).hchkerr = r.hchkerr := by
  rcases validateField_cases r .temperature d0 d1 c with ⟨-, h⟩ | ⟨-, h⟩ <;> simp [h]

@[simp] theorem validateField_temperature_rhvalid (r : Regs) (d0 d1 c : Byte) : (r.validateField .temperature d0 d1 c).rhvalid = r.rhvalid := by
  rcases validateField_cases r .temperature d0 d1 c with ⟨-, h⟩ | ⟨-, h⟩ <;> simp [h]

@[simp] theorem validateField_temperature_rawh (r : Regs) (d0 d1 c : Byte) : (r.validateField .temperature d0 d1 c).rawh = r.rawh := by
  rcases validateField_cases r .temperature d0 d1 c with ⟨-, h⟩ | ⟨-, h⟩ <;> simp [h]

@[simp] theorem validateField_temperature_rtvalid (r : Regs) (d0 d1 c : Byte) : (r.validateField .temperature d0 d1 c).rtvalid = false := by
  rcases validateField_cases r .temperature d0 d1 c with ⟨-, h⟩ | ⟨-, h⟩ <;> simp [h]

@[simp] theorem validateField_temperature_tvalid (r : Regs) (d0 d1 c : Byte) :
    (r.validateField .temperature d0 d1 c).tvalid = fieldPasses r.chken (fieldCrc r d0 d1) c := by
  rcases validateField_cases r .temperature d0 d1 c with ⟨h', h⟩ | ⟨h', h⟩ <;> simp [h, h']

@[simp] theorem validateField_temperature_tchkerr (r : Regs) (d0 d1 c : Byte) :
    (r.validateField .temperature d0 d1 c).tchkerr = !fieldPasses r.chken (fieldCrc r d0 d1) c := by
  rcases validateField_cases r .temperature d0 d1 c with ⟨h', h⟩ | ⟨h', h⟩ <;> simp [h, h']

@[simp] theorem validateField_temperature_rawt (r : Regs) (d0 d1 c : Byte) : (r.validateField .temperature d0 d1 c).rawt
    = if fieldPasses r.chken (fieldCrc r d0 d1) c then rawOfField d0 d1 else r.rawt := by
  rcases validateField_cases r .temperature d0 d1 c with ⟨h', h⟩ | ⟨h', h⟩ <;> simp [h, h']

@[simp] theorem validateField_humidity_tvalid (r : Regs) (d0 d1 c : Byte) : (r.validateField .humidity d0 d1 c).tvalid = r.tvalid := by
  rcases validateField_cases r .humidity d0 d1 c with ⟨-, h⟩ | ⟨-, h⟩ <;> simp [h]

@[simp] theorem validateField_humidity_tchkerr (r : Regs) (d0 d1 c : Byte) : (r.validateField .humidity d0 d1 c).tchkerr = r.tchkerr := by
  rcases validateField_cases r .humidity d0 d1 c with ⟨-, h⟩ | ⟨-, h⟩ <;> simp [h]

@[simp] theorem validateField_humidity_rtvalid (r : Regs) (d0 d1 c : Byte) : (r.validateField .humidity d0 d1 c).rtvalid = r.rtvalid := by
  rcases validateField_cases r .humidity d0 d1 c with ⟨-, h⟩ | ⟨-, h⟩ <;> simp [h]

@[simp] theorem validateField_humidity_rawt (r : Regs) (d0 d1 c : Byte) : (r.validateField .humidity d0 d1 c).rawt = r.rawt := by
  rcases validateField_cases r .humidity d0 d1 c with ⟨-, h⟩ | ⟨-, h⟩ <;> simp [h]

@[simp] theorem validateField_humidity_rhvalid (r : Regs) (d0 d1 c : Byte) : (r.validateField .humidity d0 d1 c).rhvalid = false := by
  rcases validateField_cases r .humidity d0 d1 c with ⟨-, h⟩ | ⟨-, h⟩ <;> simp [h]

@[simp] theorem validateField_humidity_hvalid (r : Regs) (d0 d1 c : Byte) :
    (r.validateField .humidity d0 d1 c).hvalid = fieldPasses r.chken (fieldCrc r d0 d1) c := by
  rcases validateField_cases r .humidity d0 d1 c with ⟨h', h⟩ | ⟨h', h⟩ <;> simp [h, h']

@[simp] theorem validateField_humidity_hchkerr (r : Regs) (d0 d1 c : Byte) :
    (r.validateField .humidity d0 d1 c).hchkerr = !fieldPasses r.chken (fieldCrc r d0 d1) c := by
  rcases validateField_cases r .humidity d0 d1 c with ⟨h', h⟩ | ⟨h', h⟩ <;> simp [h, h']

@[simp] theorem validateField_humidity_rawh (r : Regs) (d0 d1 c : Byte) : (r.validateField .humidity d0 d1 c).rawh
    = if fieldPasses r.chken (fieldCrc r d0 d1) c then rawOfField d0 d1 else r.rawh := by
  rcases validateField_cases r .humidity d0 d1 c with ⟨h', h⟩ | ⟨h', h⟩ <;> simp [h, h']

@[simp] theorem convertLatched_chken (r : Regs) (q : Quantity) (f : Half → Int) : (r.convertLatched q f).chken = r.chken := by
  rcases convertLatched_cases r q f with ⟨-, h⟩ | ⟨-, h⟩ <;> cases q <;> simp [h]

@[simp] theorem convertOperand_chken (r : Regs) (q : Quantity) (f : Half → Int) (raw : Half) :
    (r.convertOperand q f raw).chken = r.chken := by
  cases q <;> rfl

@[simp] theorem convertLatched_poly (r : Regs) (q : Quantity) (f : Half → Int) : (r.convertLatched q f).poly = r.poly := by
  rcases convertLatched_cases r q f with ⟨-, h⟩ | ⟨-, h⟩ <;> cases q <;> simp [h]

@[simp] theorem convertOperand_poly (r : Regs) (q : Quantity) (f : Half → Int) (raw : Half) :
    (r.convertOperand q f raw).poly = r.poly := by
  cases q <;> rfl

@[simp] theorem convertLatched_init (r : Regs) (q : Quantity) (f : Half → Int) : (r.convertLatched q f).init = r.init := by
  rcases convertLatched_cases r q f with ⟨-, h⟩ | ⟨-, h⟩ <;> cases q <;> simp [h]

@[simp] theorem convertOperand_init (r : Regs) (q : Quantity) (f : Half → Int) (raw : Half) :
    (r.convertOperand q f raw).init = r.init := by
  cases q <;> rfl

@[simp] theorem convertLatched_crc (r : Regs) (q : Quantity) (f : Half → Int) : (r.convertLatched q f).crc = r.crc := by
  rcases convertLatched_cases r q f with ⟨-, h⟩ | ⟨-, h⟩ <;> cases q <;> simp [h]

@[simp] theorem convertOperand_crc (r : Regs) (q : Quantity) (f : Half → Int) (raw : Half) :
    (r.convertOperand q f raw).crc = r.crc := by
  cases q <;> rfl

@[simp] theorem convertLatched_matched (r : Regs) (q : Quantity) (f : Half → Int) : (r.convertLatched q f).matched = r.matched := by
  rcases convertLatched_cases r q f with ⟨-, h⟩ | ⟨-, h⟩ <;> cases q <;> simp [h]

@[simp] theorem convertOperand_matched (r : Regs) (q : Quantity) (f : Half → Int) (raw : Half) :
    (r.convertOperand q f raw).matched = r.matched := by
  cases q <;> rfl

@[simp] theorem convertLatched_tvalid (r : Regs) (q : Quantity) (f : Half → Int) : (r.convertLatched q f).tvalid = r.tvalid := by
  rcases convertLatched_cases r q f with ⟨-, h⟩ | ⟨-, h⟩ <;> cases q <;> simp [h]

@[simp] theorem convertOperand_tvalid (r : Regs) (q : Quantity) (f : Half → Int) (raw : Half) :
    (r.convertOperand q f raw).tvalid = r.tvalid := by
  cases q <;> rfl

@[simp] theorem convertLatched_hvalid (r : Regs) (q : Quantity) (f : Half → Int) : (r.convertLatched q f).hvalid = r.hvalid := by
  rcases convertLatched_cases r q f with ⟨-, h⟩ | ⟨-, h⟩ <;> cases q <;> simp [h]

@[simp] theorem convertOperand_hvalid (r : Regs) (q : Quantity) (f : Half → Int) (raw : Half) :
    (r.convertOperand q f raw).hvalid = r.hvalid := by
  cases q <;> rfl

@[simp] theorem convertLatched_tchkerr (r : Regs) (q : Quantity) (f : Half → Int) : (r.convertLatched q f).tchkerr = r.tchkerr := by
  rcases convertLatched_cases r q f with ⟨-, h⟩ | ⟨-, h⟩ <;> cases q <;> simp [h]

@[simp] theorem convertOperand_tchkerr (r : Regs) (q : Quantity) (f : Half → Int) (raw : Half) :
    (r.convertOperand q f raw).tchkerr = r.tchkerr := by
  cases q <;> rfl

@[simp] theorem convertLatched_hchkerr (r : Regs) (q : Quantity) (f : Half → Int) : (r.convertLatched q f).hchkerr = r.hchkerr := by
  rcases convertLatched_cases r q f with ⟨-, h⟩ | ⟨-, h⟩ <;> cases q <;> simp [h]

@[simp] theorem convertOperand_hchkerr (r : Regs) (q : Quantity) (f : Half → Int) (raw : Half) :
    (r.convertOperand q f raw).hchkerr = r.hchkerr := by
  cases q <;> rfl

@[simp] theorem convertLatched_illcmd (r : Regs) (q : Quantity) (f : Half → Int) : (r.convertLatched q f).illcmd = r.illcmd := by
  rcases convertLatched_cases r q f with ⟨-, h⟩ | ⟨-, h⟩ <;> cases q <;> simp [h]

@[simp] theorem convertOperand_illcmd (r : Regs) (q : Quantity) (f : Half → Int) (raw : Half) :
    (r.convertOperand q f raw).illcmd = r.illcmd := by
  cases q <;> rfl

@[simp] theorem convertLatched_rawt (r : Regs) (q : Quantity) (f : Half → Int) : (r.convertLatched q f).rawt = r.rawt := by
  rcases convertLatched_cases r q f with ⟨-, h⟩ | ⟨-, h⟩ <;> cases q <;> simp [h]

@[simp] theorem convertOperand_rawt (r : Regs) (q : Quantity) (f : Half → Int) (raw : Half) :
    (r.convertOperand q f raw).rawt = r.rawt := by
  cases q <;> rfl

@[simp] theorem convertLatched_rawh (r : Regs) (q : Quantity) (f : Half → Int) : (r.convertLatched q f).rawh = r.rawh := by
  rcases convertLatched_cases r q f with ⟨-, h⟩ | ⟨-, h⟩ <;> cases q <;> simp [h]

@[simp] theorem convertOperand_rawh (r : Regs) (q : Quantity) (f : Half → Int) (raw : Half) :
    (r.convertOperand q f raw).rawh = r.rawh := by
  cases q <;> rfl

@[simp] theorem convertLatched_lastcrc (r : Regs) (q : Quantity) (f : Half → Int) : (r.convertLatched q f).lastcrc = r.lastcrc := by
  rcases convertLatched_cases r q f with ⟨-, h⟩ | ⟨-, h⟩ <;> cases q <;> simp [h]

@[simp] theorem convertOperand_lastcrc (r : Regs) (q : Quantity) (f : Half → Int) (raw : Half) :
    (r.convertOperand q f raw).lastcrc = r.lastcrc := by
  cases q <;> rfl

@[simp] theorem convertOperand_converr (r : Regs) (q : Quantity) (f : Half → Int) (raw : Half) :
    (r.convertOperand q f raw).converr = r.converr := by
  cases q <;> rfl

@[simp] theorem convertLatched_converr (r : Regs) (q : Quantity) (f : Half → Int) :
    (r.convertLatched q f).converr = (r.converr || !r.valid q) := by
  rcases convertLatched_cases r q f with ⟨h', h⟩ | ⟨h', h⟩ <;> cases q <;> simp [h, h']

@[simp] theorem convertLatched_temperature_rhvalid (r : Regs) (f : Half → Int) : (r.convertLatched .temperature f).rhvalid = r.rhvalid := by
  rcases convertLatched_cases r .temperature f with ⟨-, h⟩ | ⟨-, h⟩ <;> simp [h]

@[simp] theorem convertOperand_temperature_rhvalid (r : Regs) (f : Half → Int) (raw : Half) :
    (r.convertOperand .temperature f raw).rhvalid = r.rhvalid := by
  rfl

@[simp] theorem convertLatched_temperature_resh (r : Regs) (f : Half → Int) : (r.convertLatched .temperature f).resh = r.resh := by
  rcases convertLatched_cases r .temperature f with ⟨-, h⟩ | ⟨-, h⟩ <;> simp [h]

@[simp] theorem convertOperand_temperature_resh (r : Regs) (f : Half → Int) (raw : Half) :
    (r.convertOperand .temperature f raw).resh = r.resh := by
  rfl

@[simp] theorem convertLatched_temperature_rtvalid (r : Regs) (f : Half → Int) : (r.convertLatched .temperature f).rtvalid = r.valid .temperature := by
  rcases convertLatched_cases r .temperature f with ⟨h', h⟩ | ⟨h', h⟩ <;> simp [h, h']

@[simp] theorem convertLatched_temperature_rest (r : Regs) (f : Half → Int) :
    (r.convertLatched .temperature f).rest = if r.valid .temperature then toS32 (f (r.raw .temperature)) else r.rest := by
  rcases convertLatched_cases r .temperature f with ⟨h', h⟩ | ⟨h', h⟩ <;> simp [h, h']

@[simp] theorem convertOperand_temperature_rtvalid (r : Regs) (f : Half → Int) (raw : Half) :
    (r.convertOperand .temperature f raw).rtvalid = true := by
  rfl

@[simp] theorem convertOperand_temperature_rest (r : Regs) (f : Half → Int) (raw : Half) :
    (r.convertOperand .temperature f raw).rest = toS32 (f raw) := by
  rfl

@[simp] theorem convertLatched_humidity_rtvalid (r : Regs) (f : Half → Int) : (r.convertLatched .humidity f).rtvalid = r.rtvalid := by
  rcases convertLatched_cases r .humidity f with ⟨-, h⟩ | ⟨-, h⟩ <;> simp [h]

@[simp] theorem convertOperand_humidity_rtvalid (r : Regs) (f : Half → Int) (raw : Half) :
    (r.convertOperand .humidity f raw).rtvalid = r.rtvalid := by
  rfl

@[simp] theorem convertLatched_humidity_rest (r : Regs) (f : Half → Int) : (r.convertLatched .humidity f).rest = r.rest := by
  rcases convertLatched_cases r .humidity f with ⟨-, h⟩ | ⟨-, h⟩ <;> simp [h]

@[simp] theorem convertOperand_humidity_rest (r : Regs) (f : Half → Int) (raw : Half) :
    (r.convertOperand .humidity f raw).rest = r.rest := by
  rfl

@[simp] theorem convertLatched_humidity_rhvalid (r : Regs) (f : Half → Int) : (r.convertLatched .humidity f).rhvalid = r.valid .humidity := by
  rcases convertLatched_cases r .humidity f with ⟨h', h⟩ | ⟨h', h⟩ <;> simp [h, h']

@[simp] theorem convertLatched_humidity_resh (r : Regs) (f : Half → Int) :
    (r.convertLatched .humidity f).resh = if r.valid .humidity then toS32 (f (r.raw .humidity)) else r.resh := by
  rcases convertLatched_cases r .humidity f with ⟨h', h⟩ | ⟨h', h⟩ <;> simp [h, h']

@[simp] theorem convertOperand_humidity_rhvalid (r : Regs) (f : Half → Int) (raw : Half) :
    (r.convertOperand .humidity f raw).rhvalid = true := by
  rfl

@[simp] theorem convertOperand_humidity_resh (r : Regs) (f : Half → Int) (raw : Half) :
    (r.convertOperand .humidity f raw).resh = toS32 (f raw) := by
  rfl

/-! ### What an event asks, from the access it is -/

theorem commandWord_write {data : List Byte} (hl : data.length = 4) :
    (Event.access (.write 0 data)).commandWord = some (wordOfLanes data) := by
  simp [Event.commandWord, hl]

theorem command_write {data : List Byte} {i : Instr} (hl : data.length = 4) (hd : decode (wordOfLanes data) = .ok i) :
    (Event.access (.write 0 data)).command = some i := by
  simp [Event.command, commandWord_write hl, hd, Except.toOption]

theorem isIllegal_write {data : List Byte} {e : DecodeError} (hl : data.length = 4)
    (hd : decode (wordOfLanes data) = .error e) : (Event.access (.write 0 data)).isIllegal = true := by
  simp [Event.isIllegal, commandWord_write hl, hd, Except.toOption]

/-! ### A step, on the registers -/

/-- What a step that answers a next state does to the registers. -/
inductive RegsCase (s t : State) : Prop where
  /-- Nothing: no event, a released reset input, a read, or an access answered with the error response. -/
  | same (h : t.regs = s.regs) (hn : s.nextCommand = none) (hr : s.nextResets = false)
      (hi : s.nextEvent.any Event.isIllegal = false)
      (hw : ∀ (offset : Nat) (v : Word), offset < 64 → offset % 4 = 0 → ¬ s.nextWrites offset v)
  /-- One of the three resets of R201. -/
  | reset (h : t.regs = Regs.reset) (hr : s.nextResets = true)
  /-- A command other than SRESET. -/
  | command (i : Instr) (h : t.regs = effect i s.regs) (hn : s.nextCommand = some i) (hs : i ≠ .sreset)
      (hr : s.nextResets = false) (ha : s.resetAsserted = false) (hi : s.nextEvent.any Event.isIllegal = false)
  /-- An illegal command word (R89). -/
  | illegal (h : t.regs = s.regs.setIllcmd) (hn : s.nextCommand = none) (hr : s.nextResets = false)
      (hi : s.nextEvent.any Event.isIllegal = true)
  /-- A write of one of the window's other places (R66). -/
  | write (offset : Nat) (v : Word) (h : t.regs = s.regs.writeReg (regAt offset) v) (hw : s.nextWrites offset v)
      (h0 : 0 < offset) (hlt : offset < 64) (h4 : offset % 4 = 0) (hn : s.nextCommand = none) (hr : s.nextResets = false) (hi : s.nextEvent.any Event.isIllegal = false)

/-- The event of a rejected or reading access is no command, no reset and no illegal word. -/
theorem read_asks_nothing (offset : Int) (size : Nat) : (Event.access (.read offset size)).command = none ∧
    (Event.access (.read offset size)).isReset = false ∧ (Event.access (.read offset size)).isIllegal = false := by
  refine ⟨rfl, rfl, rfl⟩

/-- A write that is not a 32-bit write to CMD is no command, no reset and no illegal word. -/
theorem write_asks_nothing {offset : Int} {data : List Byte} (h : ¬ (offset = 0 ∧ data.length = 4)) :
    (Event.access (.write offset data)).command = none ∧ (Event.access (.write offset data)).isReset = false ∧
      (Event.access (.write offset data)).isIllegal = false := by
  simp [Event.isReset, Event.command, Event.isIllegal, Event.commandWord, h]

/-- A rejected access asks nothing either (R181). -/
theorem malformed_asks_nothing {a : Access} (h : a.wellSized = false) : (Event.access a).command = none ∧
    (Event.access a).isReset = false ∧ (Event.access a).isIllegal = false := by
  cases a with
  | read offset size => exact read_asks_nothing offset size
  | write offset data =>
    refine write_asks_nothing fun ⟨h0, hl⟩ => ?_
    rw [← Bool.not_eq_true, Access.wellSized_iff] at h
    exact h ⟨hl, by simp [Access.offset, h0]⟩

/-- An event that is no 32-bit write to an aligned place of the window writes nowhere. -/
theorem not_nextWrites {s : State} {e : Event} {rest : List Event} (h : s.pending = e :: rest)
    (hw : ∀ (offset : Nat) (data : List Byte), e = .access (.write offset data) → data.length = 4 → offset % 4 = 0 → False)
    (offset : Nat) (v : Word) (_ : offset < 64) (h4 : offset % 4 = 0) : ¬ s.nextWrites offset v := by
  rintro ⟨data, he, hl, -⟩
  simp only [State.nextEvent, h, List.head?_cons, Option.some.injEq] at he
  exact hw offset data he hl h4

/-- Every step that answers a next state acts on the registers in one of these ways. -/
theorem regs_cases {s t : State} (hst : step s = .next t) : RegsCase s t := by
  cases step_cases hst with
  | idle h ht =>
    exact .same (by rw [ht]) (by simp [State.nextCommand, State.nextEvent, h])
      (by simp [State.nextResets, State.nextEvent, h]) (by simp [State.nextEvent, h])
      (by rintro _ _ _ _ ⟨_, he, -⟩; simp [State.nextEvent, h] at he)
  | resetInput asserted rest h ht =>
    cases asserted with
    | true => exact .reset (by rw [ht]; rfl) (by simp [State.nextResets, State.nextEvent, h, Event.isReset])
    | false =>
      exact .same (by rw [ht]; rfl) (by simp [State.nextCommand, State.nextEvent, h, Event.command, Event.commandWord])
        (by simp [State.nextResets, State.nextEvent, h, Event.isReset])
        (by simp [State.nextEvent, h, Event.isIllegal, Event.commandWord])
        (not_nextWrites h fun _ _ he => by simp at he)
  | powerUp rest h ht => exact .reset (by rw [ht]; rfl) (by simp [State.nextResets, State.nextEvent, h, Event.isReset])
  | accessError a rest h _ _ hs ht =>
    obtain ⟨hc, hr, hi⟩ := malformed_asks_nothing hs
    refine .same (by rw [ht]; rfl) (by simp [State.nextCommand, State.nextEvent, h, hc])
      (by simp [State.nextResets, State.nextEvent, h, hr]) (by simp [State.nextEvent, h, hi])
      (not_nextWrites h fun offset data he hl h4 => ?_)
    rw [← Bool.not_eq_true, Access.wellSized_iff] at hs
    cases he
    exact hs ⟨hl, by simp only [Access.offset]; omega⟩
  | read offset size rest h _ _ _ ht =>
    obtain ⟨hc, hr, hi⟩ := read_asks_nothing offset size
    exact .same (by rw [ht]; rfl) (by simp [State.nextCommand, State.nextEvent, h, hc])
      (by simp [State.nextResets, State.nextEvent, h, hr]) (by simp [State.nextEvent, h, hi])
      (not_nextWrites h fun _ _ he => by simp at he)
  | command i data rest h hra hl hd ht =>
    have hc := command_write hl hd
    by_cases hs : i = .sreset
    · subst hs
      exact .reset (by rw [ht]; rfl) (by simp [State.nextResets, State.nextEvent, h, Event.isReset, hc])
    · exact .command i (by rw [ht]; rfl) (by simp [State.nextCommand, State.nextEvent, h, hc]) hs
        (by simp [State.nextResets, State.nextEvent, h, Event.isReset, hc, hs]) hra
        (by simp [State.nextEvent, h, Event.isIllegal, commandWord_write hl, hd, Except.toOption])
  | illegal data rest h hra hl e hd ht =>
    exact .illegal (by rw [ht]; rfl)
      (by simp [State.nextCommand, State.nextEvent, h, Event.command, commandWord_write hl, hd, Except.toOption])
      (by simp [State.nextResets, State.nextEvent, h, Event.isReset, Event.command, commandWord_write hl, hd,
        Except.toOption])
      (by simp [State.nextEvent, h, isIllegal_write hl hd])
  | write offset data rest h hra hl h0 hlt h4 ht =>
    obtain ⟨hc, hr, hi⟩ := write_asks_nothing (offset := (offset : Int)) (data := data) (by omega)
    exact .write offset (wordOfLanes data) (by rw [ht]; rfl) ⟨data, by simp [State.nextEvent, h], hl, rfl⟩ h0 hlt h4
      (by simp [State.nextCommand, State.nextEvent, h, hc]) (by simp [State.nextResets, State.nextEvent, h, hr])
      (by simp [State.nextEvent, h, hi])

end Sys2Proof.Machine
end

