-- ==== Sys2Proof/Tests/Slice0.lean ====
section
/-!
SUPPORT. Tests. Expected values are the spec's own: the encodings of 30_encoding.md R83-R95, the examples in the command rules,
and the vectors of 95_test_vectors.md, each named where it is used. The last part shows that the hypotheses of the
obligations can be met.
-/

namespace Sys2Proof.Tests

open Sys2Proof.Machine

-- One theorem at a time: checked side by side, these tests hold many threads at once and can run the process out of memory.
set_option Elab.async false

/-! ### Decoding: words written out from R83-R88 -/

theorem test_decode_nop : decode 0x00000000#32 = .ok .nop := by decide
theorem test_decode_crcinit : decode 0x01000000#32 = .ok .crcinit := by decide
theorem test_decode_crcbyte : decode 0x020000BE#32 = .ok (.crcbyte 0xBE#8) := by decide
theorem test_decode_crccmp : decode 0x0300000F#32 = .ok (.crccmp 0x0F#8) := by decide
theorem test_decode_valt : decode 0x1066000F#32 = .ok (.valt 0x66#8 0x00#8 0x0F#8) := by decide
theorem test_decode_valh : decode 0x118000A2#32 = .ok (.valh 0x80#8 0x00#8 0xA2#8) := by decide
theorem test_decode_convat : decode 0x20000000#32 = .ok .convat := by decide
theorem test_decode_convah : decode 0x21000000#32 = .ok .convah := by decide
theorem test_decode_convbt : decode 0x22000000#32 = .ok .convbt := by decide
theorem test_decode_convbh : decode 0x23000000#32 = .ok .convbh := by decide
theorem test_decode_convrat : decode 0x30000004#32 = .ok (.convrat 0x0004#16) := by decide
theorem test_decode_convrah : decode 0x31000003#32 = .ok (.convrah 0x0003#16) := by decide
theorem test_decode_convrbt : decode 0x3200FFFF#32 = .ok (.convrbt 0xFFFF#16) := by decide
theorem test_decode_convrbh : decode 0x33007FFF#32 = .ok (.convrbh 0x7FFF#16) := by decide
theorem test_decode_clrstat : decode 0x40000000#32 = .ok .clrstat := by decide
theorem test_decode_sreset : decode 0xF0000000#32 = .ok .sreset := by decide

/-- The bits of a VALT word one by one, from R84: OP 0001_0000, D0 0110_0110, D1 0000_0000, C 0000_1111. -/
theorem test_decode_valt_bits :
    decode 0b00010000_01100110_00000000_00001111#32 = .ok (.valt 0b01100110#8 0b00000000#8 0b00001111#8) := by decide

/-- Section 2.3, 2.6 and 2.7: the illegal words named there. -/
theorem test_decode_illegal_words :
    decode 0x02000100#32 = .error (.reservedBitSet 0x02#8) ∧ decode 0x01000001#32 = .error (.reservedBitSet 0x01#8) ∧
    decode 0x30010000#32 = .error (.reservedBitSet 0x30#8) ∧ decode 0x20000001#32 = .error (.reservedBitSet 0x20#8) ∧
    decode 0x40000001#32 = .error (.reservedBitSet 0x40#8) ∧ decode 0x05000000#32 = .error (.unlistedOpcode 0x05#8) ∧
    decode 0xFFFFFFFF#32 = .error (.unlistedOpcode 0xFF#8) := by decide

/-- R61: byte k of a word is bits 8k+7:8k. -/
theorem test_lanes_are_little_endian : wordLanes 0x1066000F#32 = [0x0F#8, 0x00#8, 0x66#8, 0x10#8] := by decide

/-- R61, R81: the decoder on bytes; three bytes are no command. -/
theorem test_decodeBytes :
    decodeBytes [0xBE#8, 0x00#8, 0x00#8, 0x02#8, 0x77#8] = .ok (.crcbyte 0xBE#8, [0x77#8]) ∧
    decodeBytes [0xBE#8, 0x00#8, 0x00#8] = .error .truncated := by decide

theorem test_decodeTableWord : decodeTableWord 32 0x3200FFFF = some (.convrbt 0xFFFF#16) := by decide

/-! ### WellFormed: one term that each check refuses (R92-R94) -/

theorem test_refuses_a_byte_of_256 : (AsmCommand.mk .crcbyte [256]).wellFormed = false := by decide
theorem test_accepts_a_byte_of_255 : (AsmCommand.mk .crcbyte [255]).wellFormed = true := by decide
theorem test_refuses_a_raw_of_65536 : (AsmCommand.mk .convrbt [65536]).wellFormed = false := by decide
theorem test_refuses_an_operand_too_many : (AsmCommand.mk .nop [0]).wellFormed = false := by decide
theorem test_refuses_an_operand_too_few : (AsmCommand.mk .valt [0x66, 0x00]).wellFormed = false := by decide
theorem test_refuses_a_wide_register_value : (AsmLine.wr .init (2 ^ 32)).wellFormed = false := by decide
theorem test_refuses_lines_whose_bytes_do_not_fit :
    (AsmLine.crcSpan []).wellFormed = false ∧ (AsmLine.crcSpan [1, 256]).wellFormed = false ∧
    (AsmLine.crcCheck [] 0).wellFormed = false ∧ (AsmLine.crcCheck [1] 256).wellFormed = false ∧
    (AsmLine.frameAT 256 0 0).wellFormed = false ∧ (AsmLine.frameAH 0 256 0).wellFormed = false ∧
    (AsmLine.frameB 0 0 0 0 0 256).wellFormed = false := by decide

/-! ### The assembler's text (R92, R93, R95) -/

theorem test_text_val_t : parseLine "val.t 0x66, 0x00, 0x0F" = some (.command ⟨.valt, [0x66, 0x00, 0x0F]⟩) := by decide +kernel
theorem test_text_wr : parseLine "wr INIT, 0xFF" = some (.wr .init 0xFF) := by decide +kernel
theorem test_text_crc_check : parseLine "crc.check 0xBE, 239, 0x92" = some (.crcCheck [0xBE, 0xEF] 0x92) := by decide +kernel
/-- R93's names alone (log entry 13). -/
theorem test_text_rd : parseLine "rd REST" = some (.rd .rest) ∧ parseLine "rd 0x30" = none := by decide +kernel
theorem test_assemble_worked : assemble ⟨.valt, [0x66, 0x00, 0x0F]⟩ = some 0x1066000F#32 := by decide

/-! ### CRC-8: sections 2.1, 2.2 and 1.3 -/

theorem test_crc_step_trace : (List.range 8).map (fun k => crcShifts 0x31#8 (k + 1) 0x1D#8) =
    [0x3A#8, 0x74#8, 0xE8#8, 0xE1#8, 0xF3#8, 0xD7#8, 0x9F#8, 0x0F#8] := by decide +kernel
theorem test_crc_step_top_bit : crc8Step 0x00#8 0x80#8 0x31#8 = 0x7A#8 := by decide +kernel
theorem test_crc_step_other_polynomial : crc8Step 0x80#8 0x00#8 0x07#8 = 0x89#8 := by decide +kernel
theorem test_crc_step_all_ones_polynomial : crc8Step 0x00#8 0x80#8 0xFF#8 = 0x40#8 := by decide +kernel
theorem test_crc_family_b : crc8 0xFF#8 0x31#8 [0xBE#8, 0xEF#8] = 0x92#8 := by decide +kernel
theorem test_crc_family_a : crc8 0x00#8 0x31#8 [0x68#8, 0x3A#8] = 0x7C#8 := by decide +kernel
theorem test_crc_nine_bytes : crc8 0xFF#8 0x31#8
    [0x31#8, 0x32#8, 0x33#8, 0x34#8, 0x35#8, 0x36#8, 0x37#8, 0x38#8, 0x39#8] = 0xF7#8 := by decide +kernel

/-! ### The converter: section 2.5 -/

theorem test_fAT : (fAT 0x4443#16, fAT 0x4444#16, fAT 0x6600#16, fAT 0xFFFC#16) = (-1, 0, 2316, 12885) := by decide
theorem test_fAH : (fAH 0x0C4B#16, fAH 0x0C4C#16, fAH 0xD91B#16, fAH 0xD91C#16) = (-1, 0, 10000, 10001) := by decide
theorem test_fBT : (fBT 0x0001#16, fBT 0x4443#16, fBT 0x7FFF#16, fBT 0xFFFE#16) = (-44998, 1663, 42498, 129997) := by decide
theorem test_fBH : (fBH 0x0001#16, fBH 0x6600#16, fBH 0x8000#16, fBH 0xFFFC#16) = (0, 3984, 5000, 9999) := by decide
theorem test_negative_pattern : toS32 (fBT 0x0003#16) = 0xFFFF5040#32 := by decide

/-! ### One step: a command word arriving at CMD (sections 2.3, 2.4, 2.6 and 2.7) -/

/-- The registers after one step that runs this word from these registers; reset values where there is no step. -/
def after (r : Regs) (w : Nat) : Regs :=
  match step (({ State.reset with regs := r } : State).withFetchWord 32 w) with
  | .next t => t.regs
  | _ => Regs.reset

theorem test_step_nop : after { Regs.reset with crc := 0x3C#8, converr := true } 0x00000000 =
    { Regs.reset with crc := 0x3C#8, converr := true } := by decide
theorem test_step_crcinit : after { Regs.reset with init := 0xFF#8, crc := 0x3C#8 } 0x01000000 =
    { Regs.reset with init := 0xFF#8, crc := 0xFF#8 } := by decide
theorem test_step_crcbyte : (after { Regs.reset with crc := 0x1D#8 } 0x02000000).crc = 0x0F#8 := by decide +kernel
theorem test_step_crcbyte_keeps_match :
    after { Regs.reset with crc := 0x0F#8, matched := true } 0x0200000F = { Regs.reset with matched := true } := by
  decide +kernel
theorem test_step_crccmp_equal : (after { Regs.reset with crc := 0x0F#8 } 0x0300000F).matched = true := by decide
theorem test_step_crccmp_differs :
    (after { Regs.reset with crc := 0x0F#8, matched := true } 0x0300000E).matched = false := by decide
/-- Section 2.4, first row. -/
theorem test_step_valt_pass : after Regs.reset 0x1066000F =
    { Regs.reset with lastcrc := 0x0F#8, rawt := 0x6600#16, tvalid := true } := by decide +kernel
/-- Section 2.4, second row, with a stale result. -/
theorem test_step_valt_fail : after { Regs.reset with rest := 2316#32, rtvalid := true } 0x1066008E =
    { Regs.reset with lastcrc := 0x0F#8, tchkerr := true, rest := 2316#32 } := by decide +kernel
/-- Section 2.4, fifth row. -/
theorem test_step_valh_fail : after { Regs.reset with init := 0xFF#8 } 0x118000A3 =
    { Regs.reset with init := 0xFF#8, lastcrc := 0xA2#8, hchkerr := true } := by decide +kernel
/-- Section 2.4, last row: checksum mode disabled. -/
theorem test_step_valh_unchecked : after { Regs.reset with chken := false } 0x11683A00 =
    { Regs.reset with chken := false, lastcrc := 0x7C#8, rawh := 0x683A#16, hvalid := true } := by decide +kernel
theorem test_step_convat : (after { Regs.reset with tvalid := true, rawt := 0x6600#16 } 0x20000000).rest = 0x0000090C#32 := by
  decide +kernel
theorem test_step_convat_refused : after { Regs.reset with rest := 2316#32, rtvalid := true } 0x20000000 =
    { Regs.reset with rest := 2316#32, converr := true } := by decide +kernel
theorem test_step_convah : after { Regs.reset with hvalid := true, rawh := 0x8000#16 } 0x21000000 =
    { Regs.reset with hvalid := true, rawh := 0x8000#16, resh := 5650#32, rhvalid := true } := by decide +kernel
theorem test_step_convbt : (after { Regs.reset with tvalid := true, rawt := 0x6600#16 } 0x22000000).rest = 0x00006097#32 := by
  decide +kernel
theorem test_step_convbh : (after { Regs.reset with hvalid := true, rawh := 0x8000#16 } 0x23000000).resh = 5000#32 := by
  decide +kernel
theorem test_step_convbh_refused : (after Regs.reset 0x23000000).statusWord = 0x080#32 := by decide
theorem test_step_convrat : (after Regs.reset 0x30000000).rest = 0xFFFFEDB3#32 := by decide +kernel
theorem test_step_convrah : after Regs.reset 0x31000003 = { Regs.reset with resh := 0xFFFFFDA8#32, rhvalid := true } := by
  decide +kernel
theorem test_step_convrbt : after { Regs.reset with tchkerr := true } 0x3200FFFF =
    { Regs.reset with tchkerr := true, rest := 0x0001FBD0#32, rtvalid := true } := by decide +kernel
theorem test_step_convrbh : (after Regs.reset 0x33007FFF).resh = 4999#32 := by decide +kernel
/-- Section 2.7: S = 0x19F, then CLRSTAT. -/
theorem test_step_clrstat : (after
    { Regs.reset with
      matched := true, tvalid := true, hvalid := true, tchkerr := true, hchkerr := true, converr := true, illcmd := true }
    0x40000000).statusWord = 0x01F#32 := by decide
theorem test_step_sreset : after { Regs.reset with chken := false, init := 0xFF#8, rawt := 0x6600#16 } 0xF0000000 =
    Regs.reset := by decide
theorem test_step_illegal : after { Regs.reset with crc := 0x92#8 } 0x02000192 =
    { Regs.reset with crc := 0x92#8, illcmd := true } := by decide

/-! ### One step: the other accesses (section 2.7) -/

/-- The registers and the answer after one step that performs this event from these registers. -/
def performed (r : Regs) (e : Event) : Option (Regs × Option Response) :=
  match step { State.reset with regs := r, pending := [e] } with
  | .next t => some (t.regs, t.response)
  | _ => none

/-- Each value has a place of its own, so that no two registers can be exchanged. -/
def marked : Regs :=
  { chken := true, poly := 0x11#8, init := 0x12#8, crc := 0x13#8, matched := true, tvalid := false, hvalid := true,
    tchkerr := true, hchkerr := false, rtvalid := true, rhvalid := false, converr := true, illcmd := false,
    rawt := 0x1415#16, rawh := 0x1617#16, rest := 0xFFFF5038#32, resh := 0x18191A1B#32, lastcrc := 0x1C#8 }

theorem test_read_every_register : [0x00, 0x04, 0x08, 0x0C, 0x10, 0x14, 0x18, 0x1C, 0x20, 0x24, 0x28, 0x2C, 0x3C].map
    marked.readWindow = [0x0#32, 0x1#32, 0x11#32, 0x12#32, 0x13#32, 0x0AD#32, 0x1415#32, 0x1617#32, 0xFFFF5038#32,
      0x18191A1B#32, 0x1C#32, 0x0#32, 0x0#32] := by decide
theorem test_read_answers : performed marked (.access (.read 0x20 4)) = some (marked, some (.value 0xFFFF5038#32)) := by decide
theorem test_write_crc : performed marked (.access (.write 0x10 [0x5A#8, 0xFF#8, 0xFF#8, 0xFF#8])) =
    some ({ marked with crc := 0x5A#8 }, some .written) := by decide
theorem test_write_ctrl : performed marked (.access (.write 0x04 (lanes 4 0xFFFFFFFE))) =
    some ({ marked with chken := false }, some .written) := by decide
theorem test_write_poly : performed marked (.access (.write 0x08 (lanes 4 0x12345607))) =
    some ({ marked with poly := 0x07#8 }, some .written) := by decide
theorem test_write_status_ignored : performed marked (.access (.write 0x14 (lanes 4 0))) =
    some (marked, some .written) := by decide
theorem test_write_reserved_ignored : performed marked (.access (.write 0x3C (lanes 4 0xFFFFFFFF))) =
    some (marked, some .written) := by decide
theorem test_narrow_write_is_an_access_error : performed marked (.access (.write 0x00 (lanes 2 0))) =
    some (marked, some (.accessError 0x00)) := by decide
theorem test_misaligned_read_is_an_access_error : performed marked (.access (.read 0x16 4)) =
    some (marked, some (.accessError 0x16)) := by decide
theorem test_power_up : performed marked .powerUp = some (Regs.reset, none) := by decide
theorem test_reset_input : performed marked (.resetInput true) = some (Regs.reset, none) := by decide
theorem test_outside_the_window_refused : performed marked (.access (.read 0x40 4)) = none ∧
    performed marked (.access (.read (-4) 4)) = none := by decide

/-- R94 through the bus: `setup.b` makes two accesses at `BASE + 0x08` and `BASE + 0x0C`. -/
theorem test_setup_b : assembleLine .setupB =
    some [memWrite (Config.base + 0x08) 4 0x31, memWrite (Config.base + 0x0C) 4 0xFF] := by rfl

/-! ### Witnesses: the hypotheses of each obligation can be met together -/

/-- A state in which this event arrives next. -/
def arriving (r : Regs) (e : Event) : State := { State.reset with regs := r, pending := [e] }

/-- The event that writes this word to CMD. -/
def commandEvent (w : Nat) : Event := .access (.write 0 (lanes 4 w))

/-- The step of a state, if it answers a next state. -/
def stepTo (s : State) : Option State :=
  match step s with
  | .next t => some t
  | _ => none

/-- What `stepTo` answers, `step` answers. -/
theorem step_of_stepTo {s t : State} (h : stepTo s = some t) : step s = .next t := by
  unfold stepTo at h
  cases hs : step s with
  | next u => rw [hs] at h; simp only [Option.some.injEq] at h; rw [h]
  | fault f => rw [hs] at h; cases h
  | refused r => rw [hs] at h; cases h

/-- Accepted field and its result: TVALID = 1, RTVALID = 1. -/
def measured : Regs :=
  { Regs.reset with tvalid := true, rawt := 0x6600#16, rest := toS32 (fAT 0x6600#16), rtvalid := true }

theorem measured_inv : measured.Inv := by
  refine ⟨by decide, by decide, fun _ => ⟨0x6600#16, .inl rfl⟩, fun h => ?_, by decide, by decide⟩
  cases h

theorem measured_gated : measured.Gated := by
  refine ⟨fun _ => ⟨rfl, .inl rfl⟩, fun h => ?_⟩
  cases h

theorem witness_StepKeepsStateInvariant :
    ∃ s t : State, s.regs.Inv ∧ s.regs.rtvalid = true ∧ step s = .next t ∧ t.regs ≠ s.regs :=
  ⟨arriving measured (commandEvent 0x22000000), _, measured_inv, rfl,
    step_of_stepTo (t := { State.reset with regs := { measured with rest := 0x00006097#32 }, response := some .written })
      (by decide +kernel), by decide +kernel⟩

theorem witness_GatedStepsKeepResultsTiedToAcceptedFields :
    ∃ s t : State, s.regs.Gated ∧ s.regs.rtvalid = true ∧ (∀ i, s.nextCommand = some i → isDirect i = false) ∧
      step s = .next t := by
  refine ⟨arriving measured (commandEvent 0x22000000),
    { State.reset with regs := { measured with rest := 0x00006097#32 }, response := some .written },
    measured_gated, rfl, fun i hi => ?_, step_of_stepTo (by decide +kernel)⟩
  have h : (arriving measured (commandEvent 0x22000000)).nextCommand = some .convbt := by decide
  rw [h] at hi
  cases hi
  rfl

theorem witness_FieldVerdictLastsUntilReset : ∃ s t : State, step s = .next t ∧ s.nextResets = false ∧
    s.regs.tvalid = true ∧ s.regs.hchkerr = true :=
  ⟨arriving { measured with hchkerr := true } (commandEvent 0), _, rfl, by decide, rfl, rfl⟩

theorem witness_MatchIsTheLatestComparison :
    (∃ s t : State, exec (.crccmp 0x0F#8) s = .next t) ∧
    (∃ s t : State, step s = .next t ∧ s.nextResets = false ∧ (∀ b, s.nextCommand ≠ some (.crccmp b)) ∧
      s.regs.matched = true) := by
  refine ⟨⟨State.reset, _, rfl⟩, arriving { Regs.reset with matched := true } (commandEvent 0x01000000), _, rfl, by decide,
    fun b h => ?_, rfl⟩
  have h' : (arriving { Regs.reset with matched := true } (commandEvent 0x01000000)).nextCommand = some .crcinit := by decide
  rw [h'] at h
  cases h

theorem witness_StickyBitsAreSetAndClearedAsNamed :
    (∃ s t : State, step s = .next t ∧ s.nextResets = false ∧ s.nextCommand ≠ some .clrstat ∧ s.regs.tvalid = false ∧
      s.nextCommand = some .convat) ∧
    (∃ s t : State, step s = .next t ∧ s.nextResets = false ∧ s.nextCommand ≠ some .clrstat ∧
      s.nextEvent.any Event.isIllegal = true) ∧
    (∃ s t : State, step s = .next t ∧ s.nextCommand = some .clrstat) ∧
    (∃ s t : State, step s = .next t ∧ s.nextResets = true) :=
  ⟨⟨arriving Regs.reset (commandEvent 0x20000000), _, rfl, by decide, by decide, rfl, by decide⟩,
    ⟨arriving Regs.reset (commandEvent 0x05000000), _, rfl, by decide, by decide, by decide⟩,
    ⟨arriving Regs.reset (commandEvent 0x40000000), _, rfl, by decide⟩,
    ⟨arriving Regs.reset .powerUp, _, rfl, by decide⟩⟩

theorem witness_LatchesHoldOnlyAcceptedFields :
    (∃ s t : State, step s = .next t ∧ t.regs.rawt ≠ s.regs.rawt ∧ s.nextResets = false) ∧
    (∃ s t : State, step s = .next t ∧ t.regs.rawh ≠ s.regs.rawh ∧ s.nextResets = false) :=
  ⟨⟨arriving Regs.reset (commandEvent 0x1066000F), { State.reset with
      regs := { Regs.reset with lastcrc := 0x0F#8, rawt := 0x6600#16, tvalid := true }, response := some .written },
      step_of_stepTo (by decide +kernel), by decide, by decide⟩,
    ⟨arriving Regs.reset (commandEvent 0x1166000F), { State.reset with
      regs := { Regs.reset with lastcrc := 0x0F#8, rawh := 0x6600#16, hvalid := true }, response := some .written },
      step_of_stepTo (by decide +kernel), by decide, by decide⟩⟩

/-- The least, the greatest and a reserved offset. -/
theorem witness_AlignedReadAnswersTheRegister : ∀ off ∈ [0x00, 0x28, 0x2C, 0x3C], ∃ (s : State) (rest : List Event),
    s.pending = .access (memRead (Config.base + off) 4) :: rest ∧ s.resetAsserted = false ∧ off < 64 ∧ off % 4 = 0 := by
  intro off h
  refine ⟨arriving marked (.access (memRead (Config.base + off) 4)), [], rfl, rfl, ?_⟩
  revert off
  decide

/-- Every clause: CMD, the four writable registers, the first and the last read-only register, the first and the last reserved
offset. -/
theorem witness_AlignedWriteActsOnOneRegister :
    ∀ off ∈ [0x00, 0x04, 0x08, 0x0C, 0x10, 0x14, 0x28, 0x2C, 0x3C], ∃ (s : State) (rest : List Event) (v : Word),
      s.pending = .access (memWrite (Config.base + off) 4 v.toNat) :: rest ∧ s.resetAsserted = false ∧
      (off = 0x00 ∨ off = 0x04 ∨ off = 0x08 ∨ off = 0x0C ∨ off = 0x10 ∨ (off % 4 = 0 ∧ 0x14 ≤ off ∧ off < 64)) := by
  intro off h
  refine ⟨arriving marked (.access (memWrite (Config.base + off) 4 (5#32 : Word).toNat)), [], 5#32, rfl, rfl, ?_⟩
  revert off
  decide

/-- Wrong size at the first byte, misaligned at the last, and both. -/
theorem witness_MalformedAccessIsAnsweredWithAccessError : ∀ p ∈ [(0x00, 2), (0x3F, 4), (0x01, 0), (0x3C, 8)],
    ∃ (s u : State) (rest : List Event), p.1 < 64 ∧ s.resetAsserted = false ∧ u.resetAsserted = false ∧
      (p.2 ≠ 4 ∨ p.1 % 4 ≠ 0) ∧
      s.pending = .access (memRead (Config.base + p.1) p.2) :: rest ∧
      u.pending = .access (memWrite (Config.base + p.1) p.2 7) :: rest := by
  intro p h
  have hp : p.1 < 64 ∧ (p.2 ≠ 4 ∨ p.1 % 4 ≠ 0) := by
    revert p
    decide
  exact ⟨arriving marked (.access (memRead (Config.base + p.1) p.2)),
    arriving marked (.access (memWrite (Config.base + p.1) p.2 7)), [], hp.1, rfl, rfl, hp.2, rfl, rfl⟩

theorem witness_NoStepOutsideTheWindowOrDuringReset :
    (∃ (s u : State) (rest : List Event) (addr n v : Nat), (addr < Config.base ∨ Config.base + 64 ≤ addr) ∧
      s.pending = .access (memRead addr n) :: rest ∧ u.pending = .access (memWrite addr n v) :: rest) ∧
    (∃ (s : State) (rest : List Event) (a : Access), s.resetAsserted = true ∧ 0 ≤ a.offset ∧ a.offset < 64 ∧
      s.pending = .access a :: rest) :=
  ⟨⟨arriving marked (.access (memRead (Config.base + 64) 4)), arriving marked (.access (memWrite (Config.base + 64) 4 0)),
      [], Config.base + 64, 4, 0, .inr (Nat.le_refl _), rfl, rfl⟩,
    ⟨{ arriving marked (.access (.read 0x3F 4)) with resetAsserted := true }, [], .read 0x3F 4, rfl, by decide, by decide, rfl⟩⟩

theorem witness_EveryAcceptedEventCompletes :
    ∃ s : State, (∀ a, s.nextEvent = some (.access a) → 0 ≤ a.offset ∧ a.offset < 64 ∧ s.resetAsserted = false) ∧
      s.nextEvent.isSome = true := by
  refine ⟨arriving marked (.access (.read 0x3F 4)), fun a h => ?_, by decide⟩
  have h' : (arriving marked (.access (.read 0x3F 4))).nextEvent = some (.access (.read 0x3F 4)) := rfl
  rw [h'] at h
  cases h
  decide

/-- A read; equal writes to the first and the last of the four registers; writes to the first and the last place that ignores
them. -/
theorem witness_ReadsAndConfigurationWritesAreIdempotent :
    (∃ (s t : State) (offset : Int) (n : Nat), s.nextEvent = some (.access (.read offset n)) ∧ step s = .next t) ∧
    (∀ off ∈ [0x04, 0x10], ∃ (s t u : State) (rest : List Event), s.pending =
        .access (memWrite (Config.base + off) 4 (0xFF#32 : Word).toNat) ::
          .access (memWrite (Config.base + off) 4 (0xFF#32 : Word).toNat) :: rest ∧
      step s = .next t ∧ step t = .next u) ∧
    (∃ s t u : State, execAll [.valt 0x66#8 0x00#8 0x0F#8, .valt 0x66#8 0x00#8 0x8E#8] s = .next t ∧
      exec (.valt 0x66#8 0x00#8 0x8E#8) s = .next u) ∧
    (∀ off ∈ [0x14, 0x3C], ∃ (s t : State) (rest : List Event), s.pending =
      .access (memWrite (Config.base + off) 4 (0xFF#32 : Word).toNat) :: rest ∧ step s = .next t) := by
  refine ⟨⟨arriving marked (.access (.read 0x14 4)), _, 0x14, 4, rfl, rfl⟩, fun off h => ?_,
    (execAll_next _ State.reset).elim fun t ht => ⟨State.reset, t, _, ht, exec_eq _ _⟩, fun off h => ?_⟩
  · have ho : 0 < off ∧ off < 64 ∧ off % 4 = 0 := by
      simp only [List.mem_cons, List.not_mem_nil, or_false] at h
      omega
    let w : Event := .access (memWrite (Config.base + off) 4 (0xFF#32 : Word).toNat)
    exact ⟨{ State.reset with pending := [w, w] }, _, _, [], rfl, step_registerWrite rfl rfl ho.1 ho.2.1 ho.2.2,
      step_registerWrite rfl rfl ho.1 ho.2.1 ho.2.2⟩
  · have ho : 0 < off ∧ off < 64 ∧ off % 4 = 0 := by
      simp only [List.mem_cons, List.not_mem_nil, or_false] at h
      omega
    exact ⟨arriving marked (.access (memWrite (Config.base + off) 4 (0xFF#32 : Word).toNat)), _, [], rfl,
      step_registerWrite rfl rfl ho.1 ho.2.1 ho.2.2⟩

theorem witness_StepRunsTheDecodedCommand : ∃ (s : State) (data : List Byte) (rest : List Event) (i : Instr),
    s.pending = .access (.write 0 data) :: rest ∧ s.resetAsserted = false ∧ data.length = 4 ∧
      decodeBytes data = .ok (i, []) :=
  ⟨arriving marked (commandEvent 0x1066000F), lanes 4 0x1066000F, [], .valt 0x66#8 0x00#8 0x0F#8, rfl, rfl, rfl, by decide⟩

theorem witness_CommandWordPerformsItsUniqueRow :
    (∃ (w : Word) (r : Row), r ∈ opcodeMap ∧ w &&& r.mask = r.pattern) ∧
    (∃ w : Word, ∀ r ∈ opcodeMap, w &&& r.mask ≠ r.pattern) :=
  ⟨⟨0xF0000000#32, ⟨.sreset, 0xF0000000#32, 0xFFFFFFFF#32⟩, by decide, by decide⟩, 0xF0000001#32, by decide⟩

theorem witness_EncodeOfDecodeIsTheWord : decode 0x10FFFFFF#32 = .ok (.valt 0xFF#8 0xFF#8 0xFF#8) := by decide

/-- One word of each of the four kinds, with the least bit that makes it illegal. -/
theorem witness_IllegalWordsAreTheFourKindsAndSetIllcmd :
    ∀ w ∈ [0x04000000#32, 0x01000001#32, 0x02000100#32, 0x30010000#32], ∃ (s : State) (rest : List Event) (e : DecodeError),
      s.pending = .access (memWrite (Config.base + 0x00) 4 w.toNat) :: rest ∧ s.resetAsserted = false ∧
      decode w = .error e := by
  intro w h
  refine ⟨arriving marked (.access (memWrite (Config.base + 0x00) 4 w.toNat)), [], illegalReason w, rfl, rfl, ?_⟩
  simp only [List.mem_cons, List.not_mem_nil, or_false] at h
  rcases h with rfl | rfl | rfl | rfl <;> decide

/-- The ends of each range set aside. -/
theorem witness_SetAsideOpcodesHaveNoMeaning :
    ∀ op ∈ [0x04#8, 0x0F#8, 0x12#8, 0x1F#8, 0x24#8, 0x2F#8, 0x34#8, 0x3F#8, 0x41#8, 0xEF#8, 0xF1#8, 0xFF#8],
      opField (op.setWidth 32 <<< 24) = op ∧ decode (op.setWidth 32 <<< 24) = .error (.unlistedOpcode op) := by decide

theorem witness_CrcinitLoadsTheInitialValue :
    opField 0x01800000#32 = 0x01#8 ∧ (0x01800000#32 : Word).extractLsb' 0 24 ≠ 0#24 := by decide

theorem witness_CrcbyteShiftsOneByte :
    (opField 0x02800000#32 = 0x02#8 ∧ (0x02800000#32 : Word).extractLsb' 8 16 ≠ 0#16) ∧
    (∃ s t : State, s.regs.crc = 0x5A#8 ∧ exec (.crcbyte s.regs.crc) s = .next t) ∧
    (∃ s t : State, s.regs.poly = 0x00#8 ∧ exec (.crcbyte 0x34#8) s = .next t) :=
  ⟨by decide, ⟨{ State.reset with regs := { Regs.reset with crc := 0x5A#8 } }, _, rfl, exec_eq _ _⟩,
    ⟨{ State.reset with regs := { Regs.reset with poly := 0x00#8 } }, _, rfl, exec_eq _ _⟩⟩

theorem witness_CrccmpComparesWithTheByte :
    (∀ k ∈ [0, 7], ∃ s t : State, k < 8 ∧ exec (.crccmp (s.regs.crc ^^^ (1#8 <<< k))) s = .next t) ∧
    (∃ s t u : State, s.regs.crc = 0x0F#8 ∧ exec (.crccmp 0x0F#8) s = .next t ∧ exec (.crccmp 0x0E#8) s = .next u) := by
  refine ⟨fun k h => ⟨State.reset, _, ?_, exec_eq _ _⟩,
    { State.reset with regs := { Regs.reset with crc := 0x0F#8 } }, _, _, rfl, exec_eq _ _, exec_eq _ _⟩
  revert k
  decide

theorem witness_RunningCrcHasFourWriters :
    (∃ s t : State, step s = .next t ∧ t.regs.crc ≠ s.regs.crc ∧ s.nextResets = false) ∧
    (∃ (s : State) (rest : List Event) (v : Word),
      s.pending = .access (memWrite (Config.base + 0x10) 4 v.toNat) :: rest ∧ s.resetAsserted = false) :=
  ⟨⟨arriving Regs.reset (.access (.write 0x10 (lanes 4 0x5A))), _, rfl, by decide, by decide⟩,
    ⟨arriving marked (.access (memWrite (Config.base + 0x10) 4 (0x5A#32 : Word).toNat)), [], 0x5A#32, rfl, rfl⟩⟩

/-- VALT and VALH: the field passes by equality, passes unchecked, and fails. -/
theorem witness_field_verdicts :
    (∃ s : State, s.regs.chken = true ∧ crc8 s.regs.init s.regs.poly [0x66#8, 0x00#8] = 0x0F#8) ∧
    (∃ s : State, s.regs.chken = false) ∧
    (∃ s : State, ¬ (s.regs.chken = false ∨ crc8 s.regs.init s.regs.poly [0x66#8, 0x00#8] = 0x0E#8)) :=
  ⟨⟨State.reset, rfl, by decide +kernel⟩, ⟨{ State.reset with regs := { Regs.reset with chken := false } }, rfl⟩,
    ⟨State.reset, by decide +kernel⟩⟩

theorem witness_ValtJudgesTheTemperatureField : opField 0x10FFFFFF#32 = 0x10#8 := by decide
theorem witness_ValhJudgesTheHumidityField : opField 0x11000000#32 = 0x11#8 := by decide

theorem witness_ChecksumModeDecidesWhetherTheFieldIsCompared : ∀ chken : Bool, ∃ s t u : State, s.regs.chken = chken ∧
    exec (.valt 0x66#8 0x00#8 0x0F#8) s = .next t ∧ exec (.valh 0x66#8 0x00#8 0x0F#8) s = .next u :=
  fun chken => ⟨{ State.reset with regs := { Regs.reset with chken := chken } }, _, _, rfl, exec_eq _ _, exec_eq _ _⟩

theorem witness_ExactlyOneChecksumBytePasses : ∀ k ∈ [0, 7], ∃ s t u : State, s.regs.chken = true ∧ k < 8 ∧
    exec (.valt 0x66#8 0x00#8 (crc8 s.regs.init s.regs.poly [0x66#8, 0x00#8] ^^^ (1#8 <<< k))) s = .next t ∧
    exec (.valh 0x66#8 0x00#8 (crc8 s.regs.init s.regs.poly [0x66#8, 0x00#8] ^^^ (1#8 <<< k))) s = .next u := by
  intro k h
  refine ⟨State.reset, _, _, rfl, ?_, exec_eq _ _, exec_eq _ _⟩
  revert k
  decide

/-- Two states that differ in the humidity state alone, and two that differ in the temperature state alone. -/
theorem witness_ValidationsAreIndependent :
    (∃ s u t v : State, s.regs ≠ u.regs ∧ s.regs.withoutHumidity = u.regs.withoutHumidity ∧
      exec (.valt 0x66#8 0x00#8 0x0F#8) s = .next t ∧ exec (.valt 0x66#8 0x00#8 0x0F#8) u = .next v) ∧
    (∃ s u t v : State, s.regs ≠ u.regs ∧ s.regs.withoutTemperature = u.regs.withoutTemperature ∧
      exec (.valh 0x66#8 0x00#8 0x0F#8) s = .next t ∧ exec (.valh 0x66#8 0x00#8 0x0F#8) u = .next v) :=
  ⟨⟨State.reset, { State.reset with regs := { Regs.reset with hvalid := true } }, _, _, by decide, by decide, exec_eq _ _,
      exec_eq _ _⟩,
    ⟨State.reset, { State.reset with regs := { Regs.reset with tvalid := true } }, _, _, by decide, by decide, exec_eq _ _,
      exec_eq _ _⟩⟩

/-- A gated humidity conversion, refused in one state and performed in the other; and the same for temperature. -/
theorem witness_NoStepCarriesOneFieldIntoTheOther :
    (∃ s u t v : State, s.pending = u.pending ∧ s.resetAsserted = u.resetAsserted ∧ step s = .next t ∧ step u = .next v ∧
      s.regs ≠ u.regs ∧ s.regs.hideHumidity = u.regs.hideHumidity) ∧
    (∃ s u t v : State, s.pending = u.pending ∧ s.resetAsserted = u.resetAsserted ∧ step s = .next t ∧ step u = .next v ∧
      s.regs ≠ u.regs ∧ s.regs.hideTemperature = u.regs.hideTemperature) :=
  ⟨⟨arriving Regs.reset (commandEvent 0x23000000), arriving { Regs.reset with hvalid := true } (commandEvent 0x23000000), _,
      { State.reset with regs := { Regs.reset with hvalid := true, rhvalid := true }, response := some .written }, rfl, rfl,
      rfl, step_of_stepTo (by decide +kernel), by decide, by decide⟩,
    ⟨arriving Regs.reset (commandEvent 0), arriving { Regs.reset with tvalid := true } (commandEvent 0), _, _, rfl, rfl,
      rfl, rfl, by decide, by decide⟩⟩

theorem witness_ValidationOrderChangesOnlyLastcrc : ∃ s t u : State,
    execAll [.valt 0x66#8 0x00#8 0x0F#8, .valh 0x80#8 0x00#8 0x00#8] s = .next t ∧
    execAll [.valh 0x80#8 0x00#8 0x00#8, .valt 0x66#8 0x00#8 0x0F#8] s = .next u ∧ s.regs.chken = true ∧
    crc8 s.regs.init s.regs.poly [0x66#8, 0x00#8] = 0x0F#8 ∧ crc8 s.regs.init s.regs.poly [0x80#8, 0x00#8] ≠ 0x00#8 :=
  (execAll_next _ State.reset).elim fun t ht => (execAll_next _ State.reset).elim fun u hu =>
    ⟨State.reset, t, u, ht, hu, rfl, by decide +kernel, by decide +kernel⟩

theorem witness_ConversionsAreMonotoneAndClose : (0#16 : Half).toNat ≤ (0xFFFF#16 : Half).toNat := by decide

/-- Each gate, open and closed, and CONVAT or CONVAH completing. -/
theorem witness_gated_conversions :
    (∃ s t : State, s.regs.tvalid = true ∧ exec .convat s = .next t) ∧ (∃ s : State, s.regs.tvalid = false) ∧
    (∃ s t : State, s.regs.hvalid = true ∧ exec .convah s = .next t) ∧ (∃ s : State, s.regs.hvalid = false) :=
  ⟨⟨{ State.reset with regs := measured }, _, rfl, exec_eq _ _⟩, ⟨State.reset, rfl⟩,
    ⟨{ State.reset with regs := { Regs.reset with hvalid := true } }, _, rfl, exec_eq _ _⟩, ⟨State.reset, rfl⟩⟩

/-- A legal word of each direct conversion at the largest operand, and an illegal one with the least reserved bit set. -/
theorem witness_direct_conversions :
    (opField 0x3000FFFF#32 = 0x30#8 ∧ (0x3000FFFF#32 : Word).extractLsb' 16 8 = 0#8) ∧
    (opField 0x3100FFFF#32 = 0x31#8 ∧ (0x3100FFFF#32 : Word).extractLsb' 16 8 = 0#8) ∧
    (opField 0x3200FFFF#32 = 0x32#8 ∧ (0x3200FFFF#32 : Word).extractLsb' 16 8 = 0#8) ∧
    (opField 0x3300FFFF#32 = 0x33#8 ∧ (0x3300FFFF#32 : Word).extractLsb' 16 8 = 0#8) ∧
    (opField 0x30010000#32 = 0x30#8 ∧ (0x30010000#32 : Word).extractLsb' 16 8 ≠ 0#8) := by decide

theorem witness_NopChangesNothing :
    opField 0x00000001#32 = 0x00#8 ∧ (0x00000001#32 : Word).extractLsb' 0 24 ≠ 0#24 := by decide

theorem witness_ClrstatClearsTheStickyBits :
    (opField 0x40000001#32 = 0x40#8 ∧ (0x40000001#32 : Word).extractLsb' 0 24 ≠ 0#24) ∧
    (∃ s t : State, s.regs.readWindow 0x14 = 0x00000180#32 ∧ exec .clrstat s = .next t) :=
  ⟨by decide, { State.reset with regs := { Regs.reset with converr := true, illcmd := true } }, _, by decide, rfl⟩

theorem witness_TheThreeResetSourcesAgree :
    (∃ (s : State) (rest : List Event), s.pending = .powerUp :: rest) ∧
    (∃ (s : State) (rest : List Event), s.pending = .resetInput true :: rest) ∧
    (∃ s t : State, s.nextResets = true ∧ step s = .next t ∧ s.nextCommand = some .sreset) ∧
    (∃ (s : State) (a : Access), s.resetAsserted = true ∧ s.nextEvent = some (.access a)) :=
  ⟨⟨arriving marked .powerUp, [], rfl⟩, ⟨arriving marked (.resetInput true), [], rfl⟩,
    ⟨arriving marked (commandEvent 0xF0000000), _, by decide, rfl, by decide⟩,
    ⟨{ arriving marked (.access (.read 0x00 4)) with resetAsserted := true }, .read 0x00 4, rfl, rfl⟩⟩

theorem witness_GatedConversionsAreRefusedUntilAFieldPasses :
    (∃ s t : State, step s = .next t ∧ s.regs.tvalid = false ∧ t.regs.tvalid = true) ∧
    (∃ s t : State, step s = .next t ∧ s.regs.hvalid = false ∧ t.regs.hvalid = true) :=
  ⟨⟨arriving Regs.reset (commandEvent 0x1066000F), { State.reset with
      regs := { Regs.reset with lastcrc := 0x0F#8, rawt := 0x6600#16, tvalid := true }, response := some .written },
      step_of_stepTo (by decide +kernel), rfl, rfl⟩,
    ⟨arriving Regs.reset (commandEvent 0x1166000F), { State.reset with
      regs := { Regs.reset with lastcrc := 0x0F#8, rawh := 0x6600#16, hvalid := true }, response := some .written },
      step_of_stepTo (by decide +kernel), rfl, rfl⟩⟩

theorem witness_ResultsStayStaleUntilAConversion :
    (∃ s t : State, step s = .next t ∧ s.regs.rtvalid = false ∧ t.regs.rtvalid = true) ∧
    (∃ s t : State, step s = .next t ∧ s.regs.rhvalid = false ∧ t.regs.rhvalid = true) ∧
    (∃ s t u : State, exec (.valt 0x66#8 0x00#8 0x0F#8) s = .next t ∧ exec (.valh 0x66#8 0x00#8 0x0F#8) s = .next u) :=
  ⟨⟨arriving Regs.reset (commandEvent 0x32000000), { State.reset with
      regs := { Regs.reset with rest := 0xFFFF5038#32, rtvalid := true }, response := some .written },
      step_of_stepTo (by decide +kernel), rfl, rfl⟩,
    ⟨arriving Regs.reset (commandEvent 0x33000000), { State.reset with
      regs := { Regs.reset with rhvalid := true }, response := some .written },
      step_of_stepTo (by decide +kernel), rfl, rfl⟩,
    ⟨State.reset, _, _, exec_eq _ _, exec_eq _ _⟩⟩

theorem witness_ConfigurationWritesAreNotRetroactive : ∀ g ∈ [Reg.poly, Reg.init, Reg.ctrl],
    ∃ (s : State) (rest : List Event) (v : Word),
      s.pending = .access (memWrite (Config.base + regOffset g) 4 v.toNat) :: rest ∧ s.resetAsserted = false :=
  fun g _ => ⟨arriving marked (.access (memWrite (Config.base + regOffset g) 4 (0xFF#32 : Word).toNat)), [], 0xFF#32, rfl, rfl⟩

theorem witness_ResultPatternsReadBackAsTheResult : ∀ f ∈ [fAT, fAH, fBT, fBH], ∃ raw : Half, 0 ≤ f raw := by
  intro f hf
  simp only [List.mem_cons, List.not_mem_nil, or_false] at hf
  rcases hf with rfl | rfl | rfl | rfl <;> exact ⟨0xFFFF#16, by decide⟩

end Sys2Proof.Tests
end

section
/-!
Proofs of the statements of 10_state.md: the state invariant (R46, R147), the verdicts, MATCH, the sticky bits, the latches
and the completion of every accepted event. The shape is the same throughout: what the commands do to the registers is said
once per command, `step_regs` says what any other step can write, and each statement puts the two together.
-/

namespace Sys2Proof.Machine

/-! ### What a step writes, by command or by none -/

/-- A host write changes at most the configuration and STATE (R66). -/
theorem writeReg_configures (r : Regs) (g : Option Reg) (v : Word) :
    ∃ chken poly init crc, r.writeReg g v = { r with chken := chken, poly := poly, init := init, crc := crc } := by
  rcases g with _ | _ | _ <;> exact ⟨_, _, _, _, rfl⟩

/-- A step that answers a next state performs a reset, executes a command, or writes at most the configuration, STATE and
ILLCMD. -/
theorem step_regs {s t : State} (hst : step s = .next t) :
    (s.nextResets = true ∧ t.regs = Regs.reset) ∨
    (∃ i, s.nextCommand = some i ∧ i ≠ .sreset ∧ t.regs = effect i s.regs) ∨
    (s.nextCommand = none ∧ ∃ chken poly init crc illcmd,
      t.regs = { s.regs with chken := chken, poly := poly, init := init, crc := crc, illcmd := illcmd }) := by
  cases regs_cases hst with
  | same h hn => exact .inr (.inr ⟨hn, _, _, _, _, _, h⟩)
  | reset h hr => exact .inl ⟨hr, h⟩
  | command i h hn hs => exact .inr (.inl ⟨i, hn, hs, h⟩)
  | illegal h hn => exact .inr (.inr ⟨hn, _, _, _, _, _, h⟩)
  | write offset v h _ _ _ _ hn =>
    obtain ⟨chken, poly, init, crc, hw⟩ := writeReg_configures s.regs (regAt offset) v
    exact .inr (.inr ⟨hn, chken, poly, init, crc, _, h.trans hw⟩)

/-! ### The range of the results (R147) -/

theorem fAT_bounds (raw : Half) : -4685 ≤ fAT raw ∧ fAT raw ≤ 12885 := by
  have := raw.isLt
  rw [fAT, maskA_toNat]
  omega

theorem fAH_bounds (raw : Half) : -600 ≤ fAH raw ∧ fAH raw ≤ 11899 := by
  have := raw.isLt
  rw [fAH, maskA_toNat]
  omega

theorem fBT_bounds (raw : Half) : -45000 ≤ fBT raw ∧ fBT raw ≤ 130000 := by
  have := raw.isLt
  rw [fBT]
  omega

theorem fBH_bounds (raw : Half) : 0 ≤ fBH raw ∧ fBH raw ≤ 10000 := by
  have := raw.isLt
  rw [fBH]
  omega

/-- A temperature result is in its range as the host reads it, as two's complement. -/
theorem temperature_pattern_range {v : Word} {raw : Half} (h : v = toS32 (fAT raw) ∨ v = toS32 (fBT raw)) :
    -45000 ≤ v.toInt ∧ v.toInt ≤ 130000 := by
  have hA := fAT_bounds raw
  have hB := fBT_bounds raw
  rcases h with rfl | rfl <;> rw [toS32_toInt (by omega) (by omega)] <;> omega

/-- A humidity result is in its range as the host reads it, as two's complement. -/
theorem humidity_pattern_range {v : Word} {raw : Half} (h : v = toS32 (fAH raw) ∨ v = toS32 (fBH raw)) :
    -600 ≤ v.toInt ∧ v.toInt ≤ 11899 := by
  have hA := fAH_bounds raw
  have hB := fBH_bounds raw
  rcases h with rfl | rfl <;> rw [toS32_toInt (by omega) (by omega)] <;> omega

/-! ### The state invariant (R46) -/

/-- The two functions of R142-R145 that convert a quantity. -/
inductive Converts : Quantity → (Half → Int) → Prop where
  | fAT : Converts .temperature fAT
  | fBT : Converts .temperature fBT
  | fAH : Converts .humidity fAH
  | fBH : Converts .humidity fBH

section Inv

variable {r : Regs} {f : Half → Int} (h : r.Inv)
include h

theorem Regs.Inv.acceptField (q : Quantity) (raw : Half) : (r.acceptField q raw).Inv := by
  cases q with
  | temperature => exact { h with temperature_verdict := by simp }
  | humidity => exact { h with humidity_verdict := by simp }

theorem Regs.Inv.rejectField (q : Quantity) : (r.rejectField q).Inv := by
  cases q with
  | temperature => exact { h with temperature_verdict := by simp }
  | humidity => exact { h with humidity_verdict := by simp }

theorem Regs.Inv.clearResult (q : Quantity) : (r.clearResult q).Inv := by
  cases q with
  | temperature => exact { h with temperature_result := by simp }
  | humidity => exact { h with humidity_result := by simp }

/-- A result that one of the quantity's two functions computed may be stored. -/
theorem Regs.Inv.storeResult {q : Quantity} (hf : Converts q f) (raw : Half) :
    (r.storeResult q (toS32 (f raw))).Inv := by
  cases hf with
  | fAT => exact { h with
      temperature_result := fun _ => ⟨raw, .inl rfl⟩, temperature_range := temperature_pattern_range (.inl rfl) }
  | fBT => exact { h with
      temperature_result := fun _ => ⟨raw, .inr rfl⟩, temperature_range := temperature_pattern_range (.inr rfl) }
  | fAH => exact { h with
      humidity_result := fun _ => ⟨raw, .inl rfl⟩, humidity_range := humidity_pattern_range (.inl rfl) }
  | fBH => exact { h with
      humidity_result := fun _ => ⟨raw, .inr rfl⟩, humidity_range := humidity_pattern_range (.inr rfl) }

theorem Regs.Inv.validateField (q : Quantity) (d0 d1 c : Byte) : (r.validateField q d0 d1 c).Inv := by
  have hl : (r.setLastCrc (fieldCrc r d0 d1)).Inv := { h with }
  rcases validateField_cases r q d0 d1 c with ⟨-, e⟩ | ⟨-, e⟩ <;> rw [e]
  · exact (hl.acceptField q _).clearResult q
  · exact (hl.rejectField q).clearResult q

theorem Regs.Inv.convertLatched {q : Quantity} (hf : Converts q f) : (r.convertLatched q f).Inv := by
  rcases convertLatched_cases r q f with ⟨-, e⟩ | ⟨-, e⟩ <;> rw [e]
  · exact h.storeResult hf _
  · exact { h.clearResult q with }

end Inv

theorem reset_inv : Regs.reset.Inv where
  temperature_verdict := by decide
  humidity_verdict := by decide
  temperature_result := by decide
  humidity_result := by decide
  temperature_range := by decide
  humidity_range := by decide

/-- Every command keeps the state invariant. -/
theorem effect_inv {r : Regs} (h : r.Inv) (i : Instr) : (effect i r).Inv := by
  cases i with
  | nop => exact h
  | crcinit | crcbyte | crccmp | clrstat => exact { h with }
  | valt d0 d1 c => exact h.validateField .temperature d0 d1 c
  | valh d0 d1 c => exact h.validateField .humidity d0 d1 c
  | convat => exact h.convertLatched .fAT
  | convah => exact h.convertLatched .fAH
  | convbt => exact h.convertLatched .fBT
  | convbh => exact h.convertLatched .fBH
  | convrat raw => exact h.storeResult .fAT raw
  | convrah raw => exact h.storeResult .fAH raw
  | convrbt raw => exact h.storeResult .fBT raw
  | convrbh raw => exact h.storeResult .fBH raw
  | sreset => exact reset_inv

/-- Settles O1: a step resets, executes a command, or writes nothing that the invariant speaks of. -/
theorem stepKeepsStateInvariant : Obligations.StepKeepsStateInvariant := by
  intro s t hinv hst
  rcases step_regs hst with ⟨-, ht⟩ | ⟨i, -, -, ht⟩ | ⟨-, _, _, _, _, _, ht⟩ <;> rw [ht]
  · exact reset_inv
  · exact effect_inv hinv i
  · exact { hinv with }

/-- Settles O3: every valid and error bit is 0 at reset, and 0 is in both ranges. -/
theorem invariantsHoldAtReset : Obligations.InvariantsHoldAtReset :=
  ⟨reset_inv, { temperature := by decide, humidity := by decide }⟩

/-! ### Verdicts (R46) -/

/-- No command but SRESET takes a temperature verdict away. -/
theorem effect_temperature_verdict {i : Instr} (hi : i ≠ .sreset) {r : Regs} (h : r.tvalid = true ∨ r.tchkerr = true) :
    (effect i r).tvalid = true ∨ (effect i r).tchkerr = true := by
  cases i with
  | valt d0 d1 c => cases hp : fieldPasses r.chken (fieldCrc r d0 d1) c <;> simp [effect, hp]
  | sreset => exact absurd rfl hi
  | _ => simpa [effect] using h

/-- No command but SRESET takes a humidity verdict away. -/
theorem effect_humidity_verdict {i : Instr} (hi : i ≠ .sreset) {r : Regs} (h : r.hvalid = true ∨ r.hchkerr = true) :
    (effect i r).hvalid = true ∨ (effect i r).hchkerr = true := by
  cases i with
  | valh d0 d1 c => cases hp : fieldPasses r.chken (fieldCrc r d0 d1) c <;> simp [effect, hp]
  | sreset => exact absurd rfl hi
  | _ => simpa [effect] using h

/-- Settles O4: only a validation writes a verdict, and it writes both bits, one the negation of the other. -/
theorem fieldVerdictLastsUntilReset : Obligations.FieldVerdictLastsUntilReset := by
  refine ⟨fun s t hst hr => ?_, fun d0 d1 c s t h => ?_, fun d0 d1 c s t h => ?_⟩
  · rcases step_regs hst with ⟨hr', -⟩ | ⟨i, -, hi, ht⟩ | ⟨-, _, _, _, _, _, ht⟩
    · simp [hr] at hr'
    · rw [ht]
      exact ⟨effect_temperature_verdict hi, effect_humidity_verdict hi⟩
    · rw [ht]
      exact ⟨id, id⟩
  · simp [exec_next h, effect]
  · simp [exec_next h, effect]

/-! ### MATCH (R30) -/

/-- MATCH is written by CRCCMP and SRESET alone. -/
theorem effect_matched {i : Instr} (hi : i ≠ .sreset) (hc : ∀ b, i ≠ .crccmp b) (r : Regs) :
    (effect i r).matched = r.matched := by
  cases i with
  | crccmp b => exact absurd rfl (hc b)
  | sreset => exact absurd rfl hi
  | _ => simp [effect]

/-- Settles O5, by `effect_matched` for the steps that execute a command. -/
theorem matchIsTheLatestComparison : Obligations.MatchIsTheLatestComparison := by
  refine ⟨fun b s t h => ?_, fun s t hst hr hc => ?_, rfl⟩
  · simp [exec_next h, effect, crcMatches, beq_eq_decide]
  · rcases step_regs hst with ⟨hr', -⟩ | ⟨i, hn, hi, ht⟩ | ⟨-, _, _, _, _, _, ht⟩
    · simp [hr] at hr'
    · rw [ht]
      exact effect_matched hi (fun b hb => hc b (by rw [hn, hb])) s.regs
    · rw [ht]

/-! ### The sticky bits (R37, R38) -/

/-- CONVERR after a command that does not clear it: a gated conversion of a field that is not valid sets it. -/
theorem effect_converr {i : Instr} (hi : i ≠ .sreset) (hc : i ≠ .clrstat) (r : Regs) :
    (effect i r).converr = true ↔ r.converr = true ∨ (r.tvalid = false ∧ (i = .convat ∨ i = .convbt)) ∨
      (r.hvalid = false ∧ (i = .convah ∨ i = .convbh)) := by
  cases i with
  | sreset => exact absurd rfl hi
  | clrstat => exact absurd rfl hc
  | _ => simp [effect, Regs.valid]

/-- No command sets ILLCMD, and only CLRSTAT and SRESET clear it. -/
theorem effect_illcmd {i : Instr} (hi : i ≠ .sreset) (hc : i ≠ .clrstat) (r : Regs) :
    (effect i r).illcmd = r.illcmd := by
  cases i with
  | sreset => exact absurd rfl hi
  | clrstat => exact absurd rfl hc
  | _ => simp [effect]

/-- CONVERR after a step that clears nothing: R37's one way of setting it. -/
theorem step_converr {s t : State} (hst : step s = .next t) (hr : s.nextResets = false)
    (hc : s.nextCommand ≠ some .clrstat) :
    t.regs.converr = true ↔ s.regs.converr = true ∨
      (s.resetAsserted = false ∧ s.regs.tvalid = false ∧ (s.nextCommand = some .convat ∨ s.nextCommand = some .convbt)) ∨
      (s.resetAsserted = false ∧ s.regs.hvalid = false ∧ (s.nextCommand = some .convah ∨ s.nextCommand = some .convbh)) := by
  cases regs_cases hst with
  | reset _ hr' => simp [hr] at hr'
  | command i h hn hs _ ha =>
    rw [h, effect_converr hs (fun e => hc (by rw [hn, e]))]
    simp [hn, ha]
  | same h hn | illegal h hn => simp [h, hn]
  | write offset v h _ _ _ _ hn =>
    obtain ⟨_, _, _, _, hw⟩ := writeReg_configures s.regs (regAt offset) v
    simp [h, hw, hn]

/-- ILLCMD after a step that clears nothing: R38's one way of setting it. -/
theorem step_illcmd {s t : State} (hst : step s = .next t) (hr : s.nextResets = false)
    (hc : s.nextCommand ≠ some .clrstat) :
    t.regs.illcmd = true ↔ s.regs.illcmd = true ∨ s.nextEvent.any Event.isIllegal = true := by
  cases regs_cases hst with
  | reset _ hr' => simp [hr] at hr'
  | command i h hn hs _ _ hi =>
    rw [h, effect_illcmd hs (fun e => hc (by rw [hn, e]))]
    simp [hi]
  | same h _ _ hi | illegal h _ _ hi => simp [h, hi]
  | write offset v h _ _ _ _ _ _ hi =>
    obtain ⟨_, _, _, _, hw⟩ := writeReg_configures s.regs (regAt offset) v
    simp [h, hw, hi]

/-- A reset and a CLRSTAT leave both sticky bits 0 (R171, R200). -/
theorem step_clears_sticky {s t : State} (hst : step s = .next t)
    (hc : s.nextResets = true ∨ s.nextCommand = some .clrstat) : t.regs.converr = false ∧ t.regs.illcmd = false := by
  cases regs_cases hst with
  | reset h => simp [h, Regs.reset]
  | command i h hn _ hr =>
    obtain rfl : i = .clrstat := by simpa [hr, hn] using hc
    simp [h, effect]
  | same _ hn hr | illegal _ hn hr | write _ _ _ _ _ _ _ hn hr => simp [hn, hr] at hc

/-- Settles O6, one lemma per bit and one for what clears them. -/
theorem stickyBitsAreSetAndClearedAsNamed : Obligations.StickyBitsAreSetAndClearedAsNamed :=
  ⟨fun _ _ => step_converr, fun _ _ => step_illcmd, fun _ _ => step_clears_sticky, rfl, rfl⟩

/-! ### The latches (R39, R40, R130) -/

/-- A command that changes RAWT is a VALT that passes, or SRESET. -/
theorem effect_rawt {i : Instr} (hi : i ≠ .sreset) {r : Regs} (hne : (effect i r).rawt ≠ r.rawt) :
    ∃ d0 d1 c, i = .valt d0 d1 c ∧ (effect i r).rawt = d0 ++ d1 ∧
      (r.chken = false ∨ crc8 r.init r.poly [d0, d1] = c) := by
  cases i with
  | valt d0 d1 c =>
    cases hp : fieldPasses r.chken (fieldCrc r d0 d1) c with
    | true => exact ⟨d0, d1, c, rfl, by simp [effect, hp, rawOfField], fieldPasses_iff.mp hp⟩
    | false => simp [effect, hp] at hne
  | sreset => exact absurd rfl hi
  | _ => simp [effect] at hne

/-- A command that changes RAWH is a VALH that passes, or SRESET. -/
theorem effect_rawh {i : Instr} (hi : i ≠ .sreset) {r : Regs} (hne : (effect i r).rawh ≠ r.rawh) :
    ∃ d0 d1 c, i = .valh d0 d1 c ∧ (effect i r).rawh = d0 ++ d1 ∧
      (r.chken = false ∨ crc8 r.init r.poly [d0, d1] = c) := by
  cases i with
  | valh d0 d1 c =>
    cases hp : fieldPasses r.chken (fieldCrc r d0 d1) c with
    | true => exact ⟨d0, d1, c, rfl, by simp [effect, hp, rawOfField], fieldPasses_iff.mp hp⟩
    | false => simp [effect, hp] at hne
  | sreset => exact absurd rfl hi
  | _ => simp [effect] at hne

/-- A step that changes a register which hosts cannot write (given by its projection `p`) performs a reset or executes a
command that changes it. -/
theorem step_changes {α : Type} {p : Regs → α} {s t : State} (hst : step s = .next t) (hne : p t.regs ≠ p s.regs)
    (hp : ∀ (r : Regs) chken poly init crc illcmd,
      p { r with chken := chken, poly := poly, init := init, crc := crc, illcmd := illcmd } = p r) :
    s.nextResets = true ∨ ∃ i, s.nextCommand = some i ∧ i ≠ .sreset ∧ t.regs = effect i s.regs ∧
      p (effect i s.regs) ≠ p s.regs := by
  rcases step_regs hst with ⟨hr, -⟩ | ⟨i, hn, hi, ht⟩ | ⟨-, _, _, _, _, _, ht⟩
  · exact .inl hr
  · exact .inr ⟨i, hn, hi, ht, ht ▸ hne⟩
  · exact absurd (by rw [ht, hp]) hne

/-- Settles O7: no host write reaches a latch, and the one command that does is a validation that passes. -/
theorem latchesHoldOnlyAcceptedFields : Obligations.LatchesHoldOnlyAcceptedFields := by
  refine ⟨fun s t hst hne => ?_, fun s t hst hne => ?_⟩
  · refine (step_changes (p := Regs.rawt) hst hne fun _ _ _ _ _ _ => rfl).imp_right fun ⟨i, hn, hi, ht, hne⟩ => ?_
    obtain ⟨d0, d1, c, rfl, hraw, hpass⟩ := effect_rawt hi hne
    exact ⟨d0, d1, c, hn, ht ▸ hraw, hpass⟩
  · refine (step_changes (p := Regs.rawh) hst hne fun _ _ _ _ _ _ => rfl).imp_right fun ⟨i, hn, hi, ht, hne⟩ => ?_
    obtain ⟨d0, d1, c, rfl, hraw, hpass⟩ := effect_rawh hi hne
    exact ⟨d0, d1, c, hn, ht ▸ hraw, hpass⟩

/-! ### Completion (R21, R185) -/

/-- The bus takes every fault of an access, so none is left (R181, R185). -/
theorem answerFault_ne_fault (s : State) (o : Host.Outcome State Fault Refusal) (f : Fault) :
    answerFault s o ≠ .fault f := by
  rcases o with _ | ⟨_⟩ | _ <;> nofun

/-- No step ends in a fault. -/
theorem step_ne_fault (s : State) (f : Fault) : step s ≠ .fault f := by
  unfold step performNext
  split
  · nofun
  · next e rest _ =>
    cases e with
    | access a => exact answerFault_ne_fault _ _ f
    | resetInput | powerUp => nofun

/-- A write to the window always completes, and only the registers differ after it (R66, R89). -/
theorem writeWindow_next (offset : Nat) (v : Word) (s : State) : ∃ f, writeWindow offset v s = .next (s.mapRegs f) := by
  rcases eq_or_ne offset 0 with rfl | h
  · cases hd : decode v with
    | ok i => exact ⟨_, writeWindow_command hd s⟩
    | error e => exact ⟨_, writeWindow_illegal hd s⟩
  · exact ⟨_, writeWindow_other h v s⟩

/-- An access in the window with the reset input released is answered, and no other event is taken. -/
theorem answered_access {a : Access} {s : State} (hw : a.inWindow = true) (hr : s.resetAsserted = false) :
    ∃ t, answerFault s (performAccess a s) = .next t ∧ t.pending = s.pending := by
  cases hs : a.wellSized with
  | false => exact ⟨s.raiseAccessError a.offset, by simp [performAccess_eq, hw, hr, hs, answerFault], rfl⟩
  | true =>
    cases a with
    | read offset size =>
      exact ⟨s.respond (.value (s.regs.readWindow offset.toNat)), by rw [performAccess_read hw hs hr, answerFault], rfl⟩
    | write offset data =>
      obtain ⟨f, hf⟩ := writeWindow_next offset.toNat (wordOfLanes data) (s.respond .written)
      exact ⟨(s.respond .written).mapRegs f, by rw [performAccess_write hw hs hr, hf, answerFault], rfl⟩

/-- Settles O12, by the kind of the next event. -/
theorem everyAcceptedEventCompletes : Obligations.EveryAcceptedEventCompletes := by
  refine ⟨step_ne_fault, fun s hs => ?_⟩
  cases hp : s.pending with
  | nil => exact ⟨s, by simp only [step, performNext, hp], hp⟩
  | cons e rest =>
    cases e with
    | access a =>
      obtain ⟨hlo, hhi, hr⟩ := hs a (by simp [State.nextEvent, hp])
      rw [step_access hp]
      exact answered_access ((Access.inWindow_iff a).mpr ⟨hlo, hhi⟩) hr
    | resetInput asserted =>
      exact ⟨driveReset asserted { s with pending := rest }, by simp only [step, performNext, hp, performEvent],
        by cases asserted <;> rfl⟩
    | powerUp =>
      exact ⟨({ s with pending := rest } : State).resetRegs, by simp only [step, performNext, hp, performEvent], rfl⟩

end Sys2Proof.Machine
end

section
/-!
Proofs of the statements of 20_memory.md. Each outcome of an arriving access is one equation for `step`: refused outside the
window or during reset, answered with the error response, a read's value, or a write's effect. Beside them stand what the
registers of the window read as and which places ignore a write.
-/

namespace Sys2Proof.Machine

/-! ### The window's registers (R23, R65, R66) -/

/-- LASTCRC is the last register (R23). -/
theorem regOffset_lt (g : Reg) : regOffset g < 0x2C := by
  cases g <;> decide

/-- From 0x2C on every offset is reserved (R44). -/
theorem regAt_reserved {offset : Nat} (h : 0x2C ≤ offset) : regAt offset = none := by
  cases hg : regAt offset with
  | none => rfl
  | some g =>
    have hlt := regOffset_lt g
    rw [regAt_some hg] at hlt
    omega

/-- The read-only registers and the reserved offsets ignore a write (R66). -/
theorem writeReg_ignored {offset : Nat} (h : 0x14 ≤ offset) (r : Regs) (v : Word) : r.writeReg (regAt offset) v = r := by
  cases hg : regAt offset with
  | none => rfl
  | some g =>
    have ho := regAt_some hg
    cases g with
    | ctrl | poly | init | crc => simp only [regOffset] at ho; omega
    | _ => rfl

/-- A second equal write leaves what the first wrote (R68). -/
theorem writeReg_writeReg (r : Regs) (g : Option Reg) (v : Word) : (r.writeReg g v).writeReg g v = r.writeReg g v := by
  cases g with
  | none => rfl
  | some g => cases g <;> rfl

/-- STATUS built up one bit at a time, each new one at bit 0 (R65). -/
theorem statusBits_eq_concat (r : Regs) : r.statusBits = ((((((((BitVec.ofBool r.illcmd).concat r.converr).concat
    r.rhvalid).concat r.rtvalid).concat r.hchkerr).concat r.tchkerr).concat r.hvalid).concat r.tvalid).concat r.matched :=
  rfl

/-- STATUS bit by bit; bits 31:9 are 0 (R29, R65). -/
theorem statusWord_getLsbD (r : Regs) (k : Nat) : r.statusWord.getLsbD k =
    ([r.matched, r.tvalid, r.hvalid, r.tchkerr, r.hchkerr, r.rtvalid, r.rhvalid, r.converr, r.illcmd][k]?).getD false := by
  rcases Nat.lt_or_ge k 9 with hk | hk
  · interval_cases k <;> simp [Regs.statusWord, statusBits_eq_concat, BitVec.getElem_concat]
  · rw [List.getElem?_eq_none hk, Regs.statusWord, BitVec.getLsbD_setWidth, BitVec.getLsbD_of_ge _ _ hk, Bool.and_false]
    rfl

/-! ### The step of an access, outcome by outcome -/

section Access

variable {s : State} {rest : List Event}

/-- An access outside the window has no step (R70). -/
theorem step_outsideWindow {a : Access} (h : s.pending = .access a :: rest) (hw : a.offset < 0 ∨ 64 ≤ a.offset) :
    step s = .refused (.outsideWindow a.offset) := by
  have hw : a.inWindow = false := by
    rw [← Bool.not_eq_true, Access.inWindow_iff]
    omega
  simp [step_access h, performAccess_eq, hw, answerFault]

/-- An access in the window during reset has no step (R201). -/
theorem step_duringReset {a : Access} (h : s.pending = .access a :: rest) (hw : 0 ≤ a.offset ∧ a.offset < 64)
    (hr : s.resetAsserted = true) : step s = .refused (.accessDuringReset a.offset) := by
  simp [step_access h, performAccess_eq, (Access.inWindow_iff a).mpr hw, hr, answerFault]

/-- An access in the window of the wrong size or alignment is answered with the error response (R63, R64, R181). -/
theorem step_malformed {a : Access} (h : s.pending = .access a :: rest) (hw : 0 ≤ a.offset ∧ a.offset < 64)
    (hr : s.resetAsserted = false) (hs : a.size ≠ 4 ∨ a.offset % 4 ≠ 0) :
    step s = .next { s with pending := rest, response := some (.accessError a.offset) } := by
  have hs : a.wellSized = false := by
    rw [← Bool.not_eq_true, Access.wellSized_iff]
    omega
  simp [step_access h, performAccess_eq, (Access.inWindow_iff a).mpr hw, hr, hs, answerFault, State.raiseAccessError,
    State.respond]

/-- A step of an access that answers a next state had the reset input released (R201). -/
theorem step_access_released {a : Access} {t : State} (h : s.pending = .access a :: rest) (hst : step s = .next t) :
    s.resetAsserted = false := by
  by_contra hr
  have hr : s.resetAsserted = true := by simpa using hr
  by_cases hw : 0 ≤ a.offset ∧ a.offset < 64
  · rw [step_duringReset h hw hr] at hst
    cases hst
  · rw [step_outsideWindow h (by omega)] at hst
    cases hst

/-- A 32-bit access at an aligned offset of the window is one the block accepts (R60, R63, R64). -/
theorem accepted_access {a : Access} {offset : Nat} (ho : a.offset = offset) (hsize : a.size = 4) (hlt : offset < 64)
    (h4 : offset % 4 = 0) : a.inWindow = true ∧ a.wellSized = true := by
  rw [Access.inWindow_iff, Access.wellSized_iff]
  omega

/-- An aligned 32-bit read in the window is answered with the value there (R65). -/
theorem step_read {offset : Nat} (h : s.pending = .access (.read offset 4) :: rest) (hr : s.resetAsserted = false)
    (hlt : offset < 64) (h4 : offset % 4 = 0) :
    step s = .next { s with pending := rest, response := some (.value (s.regs.readWindow offset)) } := by
  obtain ⟨hw, hs⟩ := accepted_access (a := .read offset 4) rfl rfl hlt h4
  rw [step_access h, performAccess_read (s := { s with pending := rest }) hw hs hr]
  rfl

/-- An aligned 32-bit write in the window acts at its offset and is answered as completed (R66). -/
theorem step_write {offset : Nat} {data : List Byte} (h : s.pending = .access (.write offset data) :: rest)
    (hr : s.resetAsserted = false) (hl : data.length = 4) (hlt : offset < 64) (h4 : offset % 4 = 0) :
    step s = writeWindow offset (wordOfLanes data) { s with pending := rest, response := some .written } := by
  obtain ⟨hw, hs⟩ := accepted_access (a := .write offset data) rfl hl hlt h4
  rw [step_access h, performAccess_write (s := { s with pending := rest }) hw hs hr, Int.toNat_natCast, State.respond]
  obtain ⟨f, hf⟩ := writeWindow_next offset (wordOfLanes data) { s with pending := rest, response := some .written }
  rw [hf, answerFault]

/-- A 32-bit write to CMD executes its word (R66, R80). -/
theorem step_cmdWrite {data : List Byte} (h : s.pending = .access (.write 0 data) :: rest)
    (hr : s.resetAsserted = false) (hl : data.length = 4) :
    step s = execWord (wordOfLanes data) { s with pending := rest, response := some .written } :=
  step_write (offset := 0) h hr hl (by decide) (by decide)

end Access

/-- Settles O11, by `step_outsideWindow` and `step_duringReset`. -/
theorem noStepOutsideTheWindowOrDuringReset : Obligations.NoStepOutsideTheWindowOrDuringReset := by
  refine ⟨fun s rest addr n v ho => ?_, fun s rest a hr hlo hhi h => step_duringReset h ⟨hlo, hhi⟩ hr⟩
  have ho : (addr : Int) - Config.base < 0 ∨ 64 ≤ (addr : Int) - Config.base := by omega
  exact ⟨fun h => step_outsideWindow h ho, fun h => step_outsideWindow h ho⟩

/-- Settles O10, by `step_malformed` at the access's distance from `BASE`. -/
theorem malformedAccessIsAnsweredWithAccessError : Obligations.MalformedAccessIsAnsweredWithAccessError := by
  intro s rest off n v hlt hr hs
  have hw : 0 ≤ (off : Int) ∧ (off : Int) < 64 := by omega
  have hs : n ≠ 4 ∨ (off : Int) % 4 ≠ 0 := by omega
  refine ⟨fun h => ?_, fun h => ?_⟩
  · rw [memRead_offset] at h
    exact step_malformed h hw hr hs
  · rw [memWrite_offset] at h
    exact step_malformed h hw hr (by rwa [Access.size, lanes_length])

/-- Settles O8: the step by `step_read`, and each offset holds the register R23 puts there. -/
theorem alignedReadAnswersTheRegister : Obligations.AlignedReadAnswersTheRegister := by
  refine ⟨fun s rest off h hr hlt h4 => ?_, fun r => ?_⟩
  · rw [memRead_offset] at h
    exact step_read h hr hlt h4
  · have hctrl : (BitVec.ofBool r.chken).setWidth 32 = if r.chken then 1#32 else 0#32 := by cases r.chken <;> rfl
    exact ⟨rfl, hctrl, rfl, rfl, rfl, statusWord_getLsbD r, rfl, rfl, rfl, rfl, rfl,
      fun off ho => by rw [Regs.readWindow, regAt_reserved ho]⟩

/-- Settles O9: at CMD by `step_cmdWrite`, elsewhere by `step_registerWrite` and what `writeReg` does at the offset. -/
theorem alignedWriteActsOnOneRegister : Obligations.AlignedWriteActsOnOneRegister := by
  intro s rest off v h hr
  refine ⟨fun h0 => ?_, fun ho => ?_, fun ho => ?_, fun ho => ?_, fun ho => ?_, fun h4 hlo hhi => ?_⟩
  · subst h0
    rw [memWrite_offset] at h
    have hv : wordOfLanes (lanes 4 v.toNat) = v := wordOfLanes_wordLanes v
    rw [step_cmdWrite h hr (lanes_length 4 _), hv]
  iterate 4
    · subst ho
      exact step_registerWrite h hr (by decide) (by decide) (by decide)
  · rw [step_registerWrite h hr (by omega) hhi h4]
    simp only [writeReg_ignored hlo, State.mapRegs, State.respond]

/-- Four byte lanes that decode to a command are the lanes of its word (R61, R81). -/
theorem decode_of_decodeBytes {data : List Byte} {i : Instr} {rest : List Byte} (hl : data.length = 4)
    (h : decodeBytes data = .ok (i, rest)) : decode (wordOfLanes data) = .ok i := by
  match data, hl with
  | [b0, b1, b2, b3], _ =>
    simp only [decodeBytes] at h
    split at h
    · next j hd =>
      cases h
      exact hd
    · cases h

/-- Settles O14: the word of the lanes decodes to the instruction, and CMD executes it. -/
theorem stepRunsTheDecodedCommand : Obligations.StepRunsTheDecodedCommand := by
  intro s data rest i h hr hl hd
  rw [step_cmdWrite h hr hl, execWord, decode_of_decodeBytes hl hd]

/-! ### Idempotence (R68) -/

/-- A step that performs a read leaves every register, whether it is answered with a value or with the error response. -/
theorem step_read_regs {s t : State} {offset : Int} {n : Nat}
    (h : s.nextEvent = some (.access (.read offset n))) (hst : step s = .next t) : t.regs = s.regs := by
  obtain ⟨hc, hr, hi⟩ := read_asks_nothing offset n
  cases regs_cases hst with
  | same ht => exact ht
  | reset _ hr' => simp [State.nextResets, h, hr] at hr'
  | command i _ hn => simp [State.nextCommand, h, hc] at hn
  | illegal _ _ _ hi' => simp [h, hi] at hi'
  | write _ _ _ hw =>
    obtain ⟨data, he, -⟩ := hw
    simp [h] at he

/-- A step of an aligned write elsewhere than at CMD, read backwards. -/
theorem step_registerWrite_next {s t : State} {rest : List Event} {offset : Nat} {v : Word}
    (h : s.pending = .access (memWrite (Config.base + offset) 4 v.toNat) :: rest) (hst : step s = .next t)
    (h0 : 0 < offset) (hlt : offset < 64) (h4 : offset % 4 = 0) :
    t.pending = rest ∧ t.regs = s.regs.writeReg (regAt offset) v := by
  rw [step_registerWrite h (step_access_released h hst) h0 hlt h4] at hst
  cases hst
  exact ⟨rfl, rfl⟩

/-- Of two equal writes of CTRL, POLY, INIT or CRC the second leaves every register (R68). -/
theorem step_equalWrites_regs {s t u : State} {rest : List Event} {off : Nat} {v : Word}
    (hoff : off ∈ [0x04, 0x08, 0x0C, 0x10])
    (h : s.pending = .access (memWrite (Config.base + off) 4 v.toNat) ::
      .access (memWrite (Config.base + off) 4 v.toNat) :: rest)
    (hst : step s = .next t) (htu : step t = .next u) : u.regs = t.regs := by
  simp only [List.mem_cons, List.not_mem_nil, or_false] at hoff
  have h0 : 0 < off := by omega
  have hlt : off < 64 := by omega
  have h4 : off % 4 = 0 := by omega
  obtain ⟨hp, ht⟩ := step_registerWrite_next h hst h0 hlt h4
  obtain ⟨-, hu⟩ := step_registerWrite_next hp htu h0 hlt h4
  rw [hu, ht, writeReg_writeReg]

/-- Two commands in a row are the second's effect on what the first leaves. -/
theorem execAll_pair (i j : Instr) (s : State) : execAll [i, j] s = .next ((s.mapRegs (effect i)).mapRegs (effect j)) := by
  simp only [execAll, exec_eq]

/-- A second CRCBYTE shifts its byte in as well: 0x80 twice does not leave what it leaves once (R68, R106). -/
theorem crcbyte_not_idempotent :
    execAll [.crcbyte 0x80#8, .crcbyte 0x80#8] State.reset ≠ execAll [.crcbyte 0x80#8] State.reset := by
  intro h
  simp only [execAll, exec_eq, Host.Outcome.next.injEq] at h
  have hcrc := congrArg (fun t => t.regs.crc) h
  simp only [State.mapRegs_regs, effect, Regs.setCrc_crc, Regs.setCrc_poly] at hcrc
  exact absurd hcrc (by decide +kernel)

/-- A validation keeps what the CRC of a field depends on (R124). -/
@[simp] theorem fieldCrc_validateField (r : Regs) (q : Quantity) (a0 a1 a d0 d1 : Byte) :
    fieldCrc (r.validateField q a0 a1 a) d0 d1 = fieldCrc r d0 d1 := by
  simp [fieldCrc]

/-- Settles O13, one lemma per bullet of R68; for two VALTs it is `fieldCrc_validateField` that makes the second verdict
the one it gives alone. -/
theorem readsAndConfigurationWritesAreIdempotent : Obligations.ReadsAndConfigurationWritesAreIdempotent := by
  refine ⟨fun s t offset n => step_read_regs, fun s t u rest off v => step_equalWrites_regs,
    fun b s => execAll_pair _ _ s, ⟨0x80#8, State.reset, crcbyte_not_idempotent⟩,
    fun a0 a1 a b0 b1 b s t u ht hu => ?_, fun s t rest off v h4 hlo hhi h hst => ?_⟩
  · rw [execAll_pair] at ht
    rw [← Host.Outcome.next.inj ht, exec_next hu]
    simp +contextual [effect, rawOfField]
  · obtain ⟨-, ht⟩ := step_registerWrite_next h hst (by omega) hhi h4
    rw [ht, writeReg_ignored hlo]

end Sys2Proof.Machine
end

section
/-!
Proofs of the statements of 30_encoding.md. The rows of the opcode map differ in their opcodes alone once the format is
known, so the development goes by format: what each format keeps zero, the word it lays out and the operands it reads are
said for the four formats, a row is tied to its format once, and the statements about all sixteen commands follow.
-/

namespace Sys2Proof

/-! ### The formats (R82-R86) -/

/-- The mask column of R88, by format: the bits that are not operand bits. -/
def Format.mask : Format → Word
  | .N => 0xFFFFFFFF#32
  | .B => 0xFFFFFF00#32
  | .V => 0xFF000000#32
  | .R => 0xFFFF0000#32

/-- The bits that the format requires to be zero are zero (R83, R85, R86). -/
def Format.ReservedZero : Format → Word → Prop
  | .N, w => w.extractLsb' 0 24 = 0#24
  | .B, w => w.extractLsb' 8 16 = 0#16
  | .V, _ => True
  | .R, w => w.extractLsb' 16 8 = 0#8

/-- The format's word with the given opcode and the operand fields of `w` (R83-R86). -/
def Format.word : Format → Byte → Word → Word
  | .N, op, _ => encodeN op
  | .B, op, w => encodeB op (bField w)
  | .V, op, w => encodeV op (d0Field w) (d1Field w) (bField w)
  | .R, op, w => encodeR op (rawField w)

/-- The operand fields of `w` as the numbers the assembler writes (R83-R86, R92). -/
def Format.operands : Format → Word → List Nat
  | .N, _ => []
  | .B, w => [(bField w).toNat]
  | .V, w => [(d0Field w).toNat, (d1Field w).toNat, (bField w).toNat]
  | .R, w => [(rawField w).toNat]

/-- A field of a word is zero when its bits are, as a number. -/
theorem extractLsb'_eq_zero_iff (w : Word) (start len : Nat) :
    w.extractLsb' start len = 0#len ↔ w.toNat / 2 ^ start % 2 ^ len = 0 := by
  rw [← BitVec.toNat_inj]
  simp [Nat.shiftRight_eq_div_pow]

/-- A row of a format matches the words with its opcode whose reserved bits are zero (R88, R89). -/
theorem hits_format_iff (m : Mnemonic) (f : Format) (op : Byte) (w : Word) :
    Row.hits ⟨m, encodeN op, f.mask⟩ w = true ↔ opField w = op ∧ f.ReservedZero w := by
  have hw := w.isLt
  rw [← BitVec.toNat_inj, opField_toNat]
  cases f with
  | N => rw [Format.mask, Format.ReservedZero, hits_formatN, encodeN_toNat, extractLsb'_eq_zero_iff]; omega
  | B => rw [Format.mask, Format.ReservedZero, hits_formatB, encodeN_toNat, extractLsb'_eq_zero_iff]; omega
  | V => rw [Format.mask, Format.ReservedZero, and_true, hits_formatV, encodeN_toNat]; omega
  | R => rw [Format.mask, Format.ReservedZero, hits_formatR, encodeN_toNat, extractLsb'_eq_zero_iff]; omega

/-- A word whose reserved bits are zero is laid out from its own opcode and operand fields (R83-R86). -/
theorem word_opField {f : Format} {w : Word} (h : f.ReservedZero w) : f.word (opField w) w = w := by
  apply BitVec.eq_of_toNat_eq
  cases f with
  | N =>
    rw [Format.ReservedZero, extractLsb'_eq_zero_iff] at h
    rw [Format.word, encodeN_toNat, opField_toNat]
    omega
  | B =>
    rw [Format.ReservedZero, extractLsb'_eq_zero_iff] at h
    rw [Format.word, encodeB_toNat, opField_toNat, bField_toNat]
    omega
  | V =>
    rw [Format.word, encodeV_toNat, opField_toNat, d0Field_toNat, d1Field_toNat, bField_toNat]
    omega
  | R =>
    rw [Format.ReservedZero, extractLsb'_eq_zero_iff] at h
    rw [Format.word, encodeR_toNat, opField_toNat, rawField_toNat]
    omega

theorem opField_encodeN (op : Byte) : opField (encodeN op) = op := by
  apply BitVec.eq_of_toNat_eq
  rw [opField_toNat, encodeN_toNat]
  omega

theorem opField_encodeR (op : Byte) (raw : Half) : opField (encodeR op raw) = op := by
  apply BitVec.eq_of_toNat_eq
  rw [opField_toNat, encodeR_toNat]
  omega

/-! ### The rows of the opcode map (R88) -/

/-- The OP column of the opcode map (R88). -/
def opcodes : List Byte := opcodeMap.map fun r => opField r.pattern

/-- The opcodes of one format (R88). -/
def Format.opcodes (f : Format) : List Byte :=
  (opcodeMap.filter fun r => r.mnemonic.format = f).map fun r => opField r.pattern

/-- A row is its mnemonic's format and its opcode: the pattern holds the opcode alone, and the mask is the format's. -/
theorem row_eq_format : ∀ r ∈ opcodeMap, r = ⟨r.mnemonic, encodeN (opField r.pattern), r.mnemonic.format.mask⟩ := by
  decide

/-- No opcode stands in two rows (R88). -/
theorem opcodes_nodup : opcodes.Nodup := by
  decide

/-- A row is known by its opcode (R88). -/
theorem row_eq_of_opField_eq {r r' : Row} (hr : r ∈ opcodeMap) (hr' : r' ∈ opcodeMap)
    (h : opField r.pattern = opField r'.pattern) : r = r' :=
  List.inj_on_of_nodup_map opcodes_nodup hr hr' h

/-- A row's command has the word of the row's format and opcode (R88). -/
theorem encode_instr {r : Row} (hr : r ∈ opcodeMap) (w : Word) :
    encode (r.mnemonic.instr w) = r.mnemonic.format.word (opField r.pattern) w := by
  fin_cases hr <;> rfl

section Decoder

variable {w : Word} {r : Row}

/-- A word matches a row of the map when it has the row's opcode and nothing in the bits the format reserves (R88, R89). -/
theorem hits_iff (hr : r ∈ opcodeMap) :
    r.hits w = true ↔ opField w = opField r.pattern ∧ r.mnemonic.format.ReservedZero w := by
  have h := hits_format_iff r.mnemonic r.mnemonic.format (opField r.pattern) w
  rwa [← row_eq_format r hr] at h

/-- At most one row matches a word (R80). -/
theorem row_eq_of_hits {r' : Row} (hr : r ∈ opcodeMap) (hr' : r' ∈ opcodeMap) (h : r.hits w = true)
    (h' : r'.hits w = true) : r = r' := by
  obtain ⟨hop, -⟩ := (hits_iff hr).mp h
  obtain ⟨hop', -⟩ := (hits_iff hr').mp h'
  exact row_eq_of_opField_eq hr hr' (hop.symm.trans hop')

/-! ### The decoder (R80, R89) -/

/-- A word that matches a row decodes to the row's command with the word's fields (R80). -/
theorem decode_of_hits (hr : r ∈ opcodeMap) (h : r.hits w = true) : decode w = .ok (r.mnemonic.instr w) := by
  cases hf : findRow w with
  | none => exact absurd h (by simp [findRow_none.mp hf r hr])
  | some r' =>
    obtain ⟨hr', h'⟩ := findRow_some hf
    rw [decode, hf, row_eq_of_hits hr hr' h h']

/-- A word that matches no row is illegal, for the reason of R89. -/
theorem decode_of_no_hits (h : ∀ r ∈ opcodeMap, r.hits w = false) : decode w = .error (illegalReason w) := by
  rw [decode, findRow_none.mpr h]

/-- A word is illegal exactly when it matches no row (R80, R89). -/
theorem decode_isError_iff_no_hits : (∃ e, decode w = .error e) ↔ ∀ r ∈ opcodeMap, r.hits w = false :=
  ⟨fun ⟨_, he⟩ => decode_error he, fun h => ⟨_, decode_of_no_hits h⟩⟩

/-- A word is illegal exactly when its opcode is unlisted, or is one of a format whose reserved bits are not all zero. -/
theorem decode_isError_iff : (∃ e, decode w = .error e) ↔
    opField w ∉ opcodes ∨ ∃ f : Format, opField w ∈ f.opcodes ∧ ¬ f.ReservedZero w := by
  rw [decode_isError_iff_no_hits]
  constructor
  · intro h
    by_cases hop : opField w ∈ opcodes
    · obtain ⟨r, hr, hop⟩ := List.mem_map.mp hop
      have hmem : opField w ∈ r.mnemonic.format.opcodes :=
        List.mem_map.mpr ⟨r, List.mem_filter.mpr ⟨hr, by simp⟩, hop⟩
      refine .inr ⟨_, hmem, fun hz => ?_⟩
      exact absurd ((hits_iff hr).mpr ⟨hop.symm, hz⟩) (by simp [h r hr])
    · exact .inl hop
  · intro h r hr
    by_contra hh
    obtain ⟨hop, hz⟩ := (hits_iff hr).mp (by simpa using hh)
    rcases h with hun | ⟨f, hf, hnz⟩
    · exact hun (List.mem_map.mpr ⟨r, hr, hop.symm⟩)
    · obtain ⟨r', hr', hop'⟩ := List.mem_map.mp hf
      obtain ⟨hr', hformat⟩ := List.mem_filter.mp hr'
      have hrow := row_eq_of_opField_eq hr hr' (hop.symm.trans hop'.symm)
      rw [hrow, of_decide_eq_true hformat] at hz
      exact hnz hz

/-- An unlisted opcode is refused as such, whatever the operand bits (R89, R90). -/
theorem decode_unlisted (h : opField w ∉ opcodes) : decode w = .error (.unlistedOpcode (opField w)) := by
  obtain ⟨e, he⟩ := decode_isError_iff.mpr (.inl h)
  have hany : opcodeMap.any (fun r => opField r.pattern == opField w) = false := by
    simpa [opcodes] using h
  rw [decode_of_no_hits (decode_error he), illegalReason, hany]
  rfl

end Decoder

/-- The opcodes of R88 lie in none of the ranges that R90 sets aside. -/
theorem opcodes_not_setAside : ∀ op ∈ opcodes,
    ¬ ((0x04 ≤ op.toNat ∧ op.toNat ≤ 0x0F) ∨ (0x12 ≤ op.toNat ∧ op.toNat ≤ 0x1F) ∨
      (0x24 ≤ op.toNat ∧ op.toNat ≤ 0x2F) ∨ (0x34 ≤ op.toNat ∧ op.toNat ≤ 0x3F) ∨
      (0x41 ≤ op.toNat ∧ op.toNat ≤ 0xEF) ∨ 0xF1 ≤ op.toNat) := by
  decide

/-! ### Decoding and encoding (R83-R88) -/

/-- Every instruction's word matches its own row, which reads the instruction back (R83-R88). -/
theorem encodeMatchesRow (i : Instr) : Laws.EncodeMatchesRow.Statement i := by
  cases i with
  | nop => exact Laws.EncodeMatchesRow.nop
  | crcinit => exact Laws.EncodeMatchesRow.crcinit
  | crcbyte b => exact Laws.EncodeMatchesRow.crcbyte b
  | crccmp b => exact Laws.EncodeMatchesRow.crccmp b
  | valt d0 d1 c => exact Laws.EncodeMatchesRow.valt d0 d1 c
  | valh d0 d1 c => exact Laws.EncodeMatchesRow.valh d0 d1 c
  | convat => exact Laws.EncodeMatchesRow.convat
  | convah => exact Laws.EncodeMatchesRow.convah
  | convbt => exact Laws.EncodeMatchesRow.convbt
  | convbh => exact Laws.EncodeMatchesRow.convbh
  | convrat raw => exact Laws.EncodeMatchesRow.convrat raw
  | convrah raw => exact Laws.EncodeMatchesRow.convrah raw
  | convrbt raw => exact Laws.EncodeMatchesRow.convrbt raw
  | convrbh raw => exact Laws.EncodeMatchesRow.convrbh raw
  | clrstat => exact Laws.EncodeMatchesRow.clrstat
  | sreset => exact Laws.EncodeMatchesRow.sreset

/-- The decoder inverts the encoder. -/
@[simp] theorem decode_encode (i : Instr) : decode (encode i) = .ok i := by
  obtain ⟨r, hr, -, hhit, hi⟩ := encodeMatchesRow i
  rw [decode_of_hits hr hhit, hi]

/-- Settles O16: `decode_encode`, on words and on their byte lanes. -/
theorem decodeOfEncodeIsTheInstruction : Obligations.DecodeOfEncodeIsTheInstruction := by
  intro i rest
  refine ⟨decode_encode i, ?_⟩
  rw [decodeBytes_wordLanes, decode_encode]
  rfl

/-- Settles O17: the word matches a row, so the row's format lays it out from its own fields. -/
theorem encodeOfDecodeIsTheWord : Obligations.EncodeOfDecodeIsTheWord := by
  intro w i h
  obtain ⟨r, hr, hhit, rfl⟩ := decode_ok h
  obtain ⟨hop, hz⟩ := (hits_iff hr).mp hhit
  rw [encode_instr hr, ← hop, word_opField hz]

end Sys2Proof

namespace Sys2Proof.Machine

/-! ### Executing a word (R80, R89, R90) -/

/-- An illegal word sets ILLCMD and changes nothing else (R89). -/
theorem execWord_illegal {w : Word} {e : DecodeError} (h : decode w = .error e) (s : State) :
    execWord w s = .next { s with regs := { s.regs with illcmd := true } } := by
  rw [execWord, h]
  rfl

/-- Settles O15: the rows' opcodes differ, so the row found is the row that matches. -/
theorem commandWordPerformsItsUniqueRow : Obligations.CommandWordPerformsItsUniqueRow := by
  refine ⟨fun w r r' hr hr' h h' => ?_, fun w r s hr h => ?_, fun w s h => ?_⟩
  · exact row_eq_of_hits (w := w) hr hr' (beq_iff_eq.mpr h) (beq_iff_eq.mpr h')
  · rw [execWord, decode_of_hits hr (beq_iff_eq.mpr h)]
  · exact execWord_illegal (decode_of_no_hits fun r hr => beq_eq_false_iff_ne.mpr (h r hr)) s

/-- Settles O18: `decode_isError_iff` at each format, none for V, which reserves no bit; the write is
`execWord_illegal` at CMD. -/
theorem illegalWordsAreTheFourKindsAndSetIllcmd : Obligations.IllegalWordsAreTheFourKindsAndSetIllcmd := by
  refine ⟨fun w => ?_, fun s rest w e h hr he => ?_⟩
  · refine decode_isError_iff.trans (or_congr_right ⟨fun ⟨f, hop, hz⟩ => ?_, fun h => ?_⟩)
    · cases f with
      | N => exact .inl ⟨hop, hz⟩
      | B => exact .inr (.inl ⟨hop, hz⟩)
      | V => exact absurd trivial hz
      | R => exact .inr (.inr ⟨hop, hz⟩)
    · rcases h with h | h | h
      · exact ⟨.N, h⟩
      · exact ⟨.B, h⟩
      · exact ⟨.R, h⟩
  · obtain ⟨hcmd, -⟩ := alignedWriteActsOnOneRegister s rest 0x00 w h hr
    rw [hcmd rfl, execWord_illegal he]

/-- Settles O19: the set-aside ranges hold no listed opcode. -/
theorem setAsideOpcodesHaveNoMeaning : Obligations.SetAsideOpcodesHaveNoMeaning := by
  intro w h
  have hdec := decode_unlisted fun hop => opcodes_not_setAside _ hop h
  exact ⟨hdec, execWord_illegal hdec⟩

/-- Settles O20: the opcode read back from each conversion's word is the one its format was given. -/
theorem conversionOpcodesShareOneStructure : Obligations.ConversionOpcodesShareOneStructure := fun raw =>
  ⟨opField_encodeN _, opField_encodeN _, opField_encodeN _, opField_encodeN _,
    opField_encodeR _ raw, opField_encodeR _ raw, opField_encodeR _ raw, opField_encodeR _ raw⟩

/-- Settles O23: each worked word is its command's encoding, which decodes to it; the two illegal words by evaluation. -/
theorem workedEncodingsDecodeAsWritten : Obligations.WorkedEncodingsDecodeAsWritten :=
  ⟨by decide, decode_encode (.valt 0x66#8 0x00#8 0x0F#8), by decide, decode_encode (.crcbyte 0xBE#8),
    by decide, decode_encode (.convrbt 0xFFFF#16), by decide, by decide⟩

/-! ### The assembler (R92) -/

/-- A row's pattern is the one the assembler finds for its mnemonic (R92). -/
theorem patternOf_row : ∀ r ∈ opcodeMap, patternOf r.mnemonic = some r.pattern := by
  decide

/-- Every mnemonic has a row (R88). -/
theorem patternOf_isSome (m : Mnemonic) : (patternOf m).isSome = true := by
  cases m <;> rfl

/-- The command line of a mnemonic's command is the mnemonic and the operands its format reads (R92). -/
theorem toAsm_instr (m : Mnemonic) (w : Word) : (m.instr w).toAsm = ⟨m, m.format.operands w⟩ := by
  cases m <;> rfl

/-- Only the empty list fits no field (R92). -/
theorem operandsFit_nil {vs : List Nat} : operandsFit [] vs = true ↔ vs = [] := by
  cases vs <;> simp [operandsFit]

/-- The first operand fits the first field, and the others the others (R92). -/
theorem operandsFit_cons {width : Nat} {widths vs : List Nat} : operandsFit (width :: widths) vs = true ↔
    ∃ v rest, vs = v :: rest ∧ v < 2 ^ width ∧ operandsFit widths rest = true := by
  cases vs <;> simp [operandsFit]

/-- The operands a format reads fit its fields (R92). -/
theorem operandsFit_operands (f : Format) (w : Word) : operandsFit f.operandWidths (f.operands w) = true := by
  have h0 := (d0Field w).isLt
  have h1 := (d1Field w).isLt
  have hb := (bField w).isLt
  have hraw := (rawField w).isLt
  cases f <;> simp [Format.operandWidths, Format.operands, operandsFit, *]

/-- Three bytes side by side, as a number (R84, R92). -/
theorem operandBits_three {d1 c : Nat} (d0 : Nat) (h1 : d1 < 2 ^ 8) (hc : c < 2 ^ 8) :
    operandBits [d0, d1, c] = d0 * 2 ^ 16 + d1 * 2 ^ 8 + c := by
  have h : (d0 <<< 16) ||| (d1 <<< 8) = ((d0 <<< 8) + d1) <<< 8 := by
    rw [Nat.shiftLeft_add_eq_or_of_lt h1, Nat.shiftLeft_or_distrib, ← Nat.shiftLeft_add]
  rw [operandBits, h, ← Nat.shiftLeft_add_eq_or_of_lt hc]
  simp only [Nat.shiftLeft_eq]
  omega

/-- The operands a format reads, put together, are below the opcode and add up to the format's word (R92). -/
theorem word_toNat (f : Format) (op : Byte) (w : Word) : operandBits (f.operands w) < 2 ^ 24 ∧
    (f.word op w).toNat = op.toNat * 2 ^ 24 + operandBits (f.operands w) := by
  cases f with
  | N => simp [Format.operands, operandBits, Format.word, encodeN_toNat]
  | B =>
    refine ⟨?_, encodeB_toNat op _⟩
    have := (bField w).isLt
    simp only [Format.operands, operandBits]
    omega
  | V =>
    have h0 := (d0Field w).isLt
    have h1 := (d1Field w).isLt
    have hc := (bField w).isLt
    rw [Format.operands, operandBits_three _ h1 hc, Format.word, encodeV_toNat]
    omega
  | R =>
    refine ⟨?_, encodeR_toNat op _⟩
    have := (rawField w).isLt
    simp only [Format.operands, operandBits]
    omega

/-- A format's word is its opcode's pattern with the operand bits put in (R92). -/
theorem word_eq_or (f : Format) (op : Byte) (w : Word) :
    f.word op w = encodeN op ||| BitVec.ofNat 32 (operandBits (f.operands w)) := by
  obtain ⟨hlt, hw⟩ := word_toNat f op w
  apply BitVec.eq_of_toNat_eq
  rw [hw, BitVec.toNat_or, encodeN_toNat, BitVec.toNat_ofNat, Nat.mod_eq_of_lt (by omega), ← Nat.shiftLeft_eq,
    Nat.shiftLeft_add_eq_or_of_lt hlt]

/-- Operands that fit a format are the ones it reads from the word they make (R92). -/
theorem operands_of_fit {f : Format} {vs : List Nat} (h : operandsFit f.operandWidths vs = true) :
    f.operands (BitVec.ofNat 32 (operandBits vs)) = vs := by
  cases f with
  | N =>
    obtain rfl := operandsFit_nil.mp h
    rfl
  | B =>
    obtain ⟨v, _, rfl, hv, hnil⟩ := operandsFit_cons.mp h
    obtain rfl := operandsFit_nil.mp hnil
    rw [Format.operands, operandBits, bField_toNat, BitVec.toNat_ofNat]
    simp only [List.cons.injEq, and_true]
    omega
  | V =>
    obtain ⟨d0, _, rfl, h0, ht⟩ := operandsFit_cons.mp h
    obtain ⟨d1, _, rfl, h1, ht⟩ := operandsFit_cons.mp ht
    obtain ⟨c, _, rfl, hc, hnil⟩ := operandsFit_cons.mp ht
    obtain rfl := operandsFit_nil.mp hnil
    rw [Format.operands, operandBits_three d0 h1 hc, d0Field_toNat, d1Field_toNat, bField_toNat, BitVec.toNat_ofNat]
    simp only [List.cons.injEq, and_true]
    omega
  | R =>
    obtain ⟨v, _, rfl, hv, hnil⟩ := operandsFit_cons.mp h
    obtain rfl := operandsFit_nil.mp hnil
    rw [Format.operands, operandBits, rawField_toNat, BitVec.toNat_ofNat]
    simp only [List.cons.injEq, and_true]
    omega

/-- The assembler's word for an instruction is the encoder's (R92). -/
theorem assemble_toAsm (i : Instr) : assemble i.toAsm = some (encode i) := by
  obtain ⟨r, hr, -, -, hi⟩ := encodeMatchesRow i
  have hp : r.pattern = encodeN (opField r.pattern) := congrArg Row.pattern (row_eq_format r hr)
  have hword := encode_instr hr (encode i)
  have hasm := toAsm_instr r.mnemonic (encode i)
  rw [hi] at hword hasm
  rw [hasm, assemble, AsmCommand.wellFormed, operandsFit_operands, patternOf_row r hr, if_pos rfl]
  conv_rhs => rw [hword, word_eq_or, ← hp]
  rfl

/-- A well-formed command line is the line of the command its operands make (R92). -/
theorem wellFormed_iff (c : AsmCommand) : c.wellFormed = true ↔ ∃ i : Instr, c = i.toAsm := by
  constructor
  · intro h
    refine ⟨c.mnemonic.instr (BitVec.ofNat 32 (operandBits c.operands)), ?_⟩
    rw [toAsm_instr, operands_of_fit h]
  · rintro ⟨i, rfl⟩
    obtain ⟨r, -, -, -, hi⟩ := encodeMatchesRow i
    rw [← hi, toAsm_instr]
    exact operandsFit_operands _ _

/-- The assembler refuses exactly the lines that are not well formed (R92). -/
theorem assemble_eq_none_iff (c : AsmCommand) : assemble c = none ↔ c.wellFormed = false := by
  have hp := patternOf_isSome c.mnemonic
  rw [Option.isSome_iff_ne_none] at hp
  cases hw : c.wellFormed <;> simp [assemble, hw, hp]

/-- Settles O21, by `assemble_toAsm` and `wellFormed_iff`. -/
theorem assemblerWordIsTheEncoding : Obligations.AssemblerWordIsTheEncoding := by
  refine ⟨assemble_toAsm, fun c => ?_, wellFormed_iff⟩
  rw [assemble_eq_none_iff, ← Bool.not_eq_true, wellFormed_iff, not_exists]

/-! ### Pseudo-instructions (R94) -/

/-- The access by which a host gives a command: its word, written to CMD (R92). -/
def commandWrite (i : Instr) : Access := memWrite (Config.base + 0x00) 4 (encode i).toNat

/-- The line of a command. -/
def commandLine (i : Instr) : AsmLine := .command i.toAsm

/-- A command's line stands for its write (R92). -/
theorem lineAccess_commandLine (i : Instr) : lineAccess (commandLine i) = some (commandWrite i) := by
  rw [commandLine, lineAccess, assemble_toAsm]
  rfl

/-- Command lines stand for their writes, in order (R92). -/
theorem mapM_lineAccess_commandLines (is : List Instr) :
    (is.map commandLine).mapM lineAccess = some (is.map commandWrite) := by
  induction is with
  | nil => rfl
  | cons i is ih => simp [lineAccess_commandLine, ih]

/-- A well-formed line that expands to command lines stands for their writes, in order (R94). -/
theorem assembleLine_of_expand {l : AsmLine} {is : List Instr} (hw : l.wellFormed = true)
    (he : expand l = is.map commandLine) : assembleLine l = some (is.map commandWrite) := by
  rw [assembleLine, if_pos hw, he, mapM_lineAccess_commandLines]

/-- Bytes are numbers that fit the byte field (R92). -/
theorem bytes_fit (bs : List Byte) : (bs.map BitVec.toNat).all (fun b => decide (b < 2 ^ 8)) = true := by
  simpa using fun (b : Byte) _ => b.isLt

/-- The commands of `crc.span` (R94). -/
def spanCommands (bs : List Byte) : List Instr := .crcinit :: bs.map .crcbyte

/-- `crc.span` expands to the lines of its commands (R94). -/
theorem expandSpan_eq (bs : List Byte) : expandSpan (bs.map BitVec.toNat) = (spanCommands bs).map commandLine := by
  simp [expandSpan, spanCommands, commandLine, Instr.toAsm]

/-- The accesses of `crc.span` (R94). -/
theorem map_commandWrite_span (bs : List Byte) : (spanCommands bs).map commandWrite =
    commandWrite .crcinit :: bs.map fun b => commandWrite (.crcbyte b) := by
  simp [spanCommands]

/-- Settles O22: each line is well formed and expands to the listed command lines; for the spans by `expandSpan_eq`. -/
theorem pseudoInstructionsExpandExactly : Obligations.PseudoInstructionsExpandExactly := by
  refine ⟨fun b bs => ?_, fun b bs c => ?_, rfl, rfl, fun m l c => ?_, fun m l c => ?_,
    fun t0 t1 tc h0 h1 hc => ?_⟩
  · have h := assembleLine_of_expand (l := .crcSpan ((b :: bs).map BitVec.toNat)) (bytes_fit (b :: bs))
      (expandSpan_eq (b :: bs))
    rwa [map_commandWrite_span] at h
  · have h := assembleLine_of_expand (l := .crcCheck ((b :: bs).map BitVec.toNat) c.toNat)
      (is := spanCommands (b :: bs) ++ [.crccmp c]) ?_ ?_
    · rwa [List.map_append, map_commandWrite_span] at h
    · have hfit := bytes_fit (b :: bs ++ [c])
      rwa [List.map_append] at hfit
    · rw [expand, expandSpan_eq, List.map_append]
      rfl
  · exact assembleLine_of_expand (is := [.valt m l c, .convat]) (bytes_fit [m, l, c]) rfl
  · exact assembleLine_of_expand (is := [.valh m l c, .convah]) (bytes_fit [m, l, c]) rfl
  · exact assembleLine_of_expand (is := [.valt t0 t1 tc, .valh h0 h1 hc, .convbt, .convbh])
      (bytes_fit [t0, t1, tc, h0, h1, hc]) rfl

end Sys2Proof.Machine
end

section
/-!
Proofs of the statements of 40_crc.md. What the engine's command words need comes first, then the iteration of R100: what it
does to the zero register, with polynomial 0, and to the register read as a polynomial over GF(2). The laws of the span
function follow from it, then the three commands of the engine and the sequences of them that compute a span.
-/

namespace Sys2Proof

/-! ### The words of format B and the words with a reserved bit set (R85, R89) -/

/-- A format B word is its opcode's pattern with the operand put in (R85). -/
theorem encodeB_eq_or (op b : Byte) : encodeB op b = encodeN op ||| b.zeroExtend 32 := by
  have hb : (b.zeroExtend 32).toNat = b.toNat := by simp; omega
  have hlt : b.toNat < 2 ^ 24 := by omega
  apply BitVec.eq_of_toNat_eq
  rw [BitVec.toNat_or, encodeB_toNat, encodeN_toNat, hb, ← Nat.shiftLeft_eq, Nat.shiftLeft_add_eq_or_of_lt hlt]

/-- A listed opcode with a bit set that its format reserves is refused for that bit (R89). -/
theorem decode_reserved {w : Word} {f : Format} (hop : opField w ∈ f.opcodes) (hz : ¬ f.ReservedZero w) :
    decode w = .error (.reservedBitSet (opField w)) := by
  obtain ⟨e, he⟩ := decode_isError_iff.mpr (.inr ⟨f, hop, hz⟩)
  obtain ⟨r, hr, hpat⟩ := List.mem_map.mp hop
  have hany : opcodeMap.any (fun r => opField r.pattern == opField w) = true :=
    List.any_eq_true.mpr ⟨r, List.mem_of_mem_filter hr, beq_iff_eq.mpr hpat⟩
  rw [decode_of_no_hits (decode_error he), illegalReason, hany]
  rfl

end Sys2Proof

namespace Sys2Proof.Machine

/-! ### The byte step (R100) -/

/-- The shifts are the iterates of one shift. -/
theorem crcShifts_eq_iterate (p : Byte) (n : Nat) (s : Byte) : crcShifts p n s = (crcShift p)^[n] s := by
  induction n generalizing s with
  | zero => rfl
  | succ n ih => rw [crcShifts, ih, Function.iterate_succ_apply]

/-- Settles O24: `crcShifts_eq_iterate` at the eight shifts of the byte step. -/
theorem crcStepIsEightConditionalShifts : Obligations.CrcStepIsEightConditionalShifts :=
  fun s b p => crcShifts_eq_iterate p 8 (s ^^^ b)

/-- No polynomial is put into a zero register. -/
theorem crcShifts_zero (p : Byte) (n : Nat) : crcShifts p n 0#8 = 0#8 := by
  induction n with
  | zero => rfl
  | succ n ih => exact ih

/-- With polynomial 0 the register is shifted and nothing is put in. -/
theorem crcShifts_zero_poly (n : Nat) (s : Byte) : crcShifts 0x00#8 n s = s <<< n := by
  have hone (x : Byte) : crcShift 0x00#8 x = x <<< 1 := by simp [crcShift]
  induction n generalizing s with
  | zero => simp [crcShifts]
  | succ n ih => rw [crcShifts, ih, hone, ← BitVec.shiftLeft_add, Nat.add_comm]

/-- A byte equal to STATE leaves 0 (R103). -/
theorem crc8Step_self (s p : Byte) : crc8Step s s p = 0#8 := by
  rw [crc8Step, BitVec.xor_self, crcShifts_zero]

/-- With polynomial 0 every byte step leaves 0 (R103). -/
theorem crc8Step_zero_poly (s b : Byte) : crc8Step s b 0x00#8 = 0#8 := by
  rw [crc8Step, crcShifts_zero_poly, BitVec.shiftLeft_eq_zero (le_refl 8)]

/-! ### The laws of the span function (R103) -/

/-- A span continues from the CRC of its first part. -/
theorem crc8_append (init p : Byte) (d1 d2 : List Byte) : crc8 init p (d1 ++ d2) = crc8 (crc8 init p d1) p d2 := by
  induction d1 generalizing init with
  | nil => rfl
  | cons b d1 ih => exact ih (crc8Step init b p)

/-- Settles O26: the appended CRC is a byte equal to the state that the span leaves. -/
theorem crcLaws : Obligations.CrcLaws := by
  refine ⟨crc8_append, crc8Step_self, fun init p d => ?_, crc8Step_self 0#8, crc8Step_zero_poly⟩
  rw [crc8_append]
  exact crc8Step_self (crc8 init p d) p

/-! ### The register as a polynomial over GF(2) (R101) -/

section Polynomial

open Polynomial

/-- The coefficients are the bits. -/
theorem coeff_bitPolynomial {n : Nat} (v : BitVec n) (i : Nat) :
    (bitPolynomial v).coeff i = if v.getLsbD i then 1 else 0 := by
  have hterm (j : Nat) : (if v.getLsbD j then X ^ j else 0 : (ZMod 2)[X]).coeff i =
      if i = j then (if v.getLsbD i then 1 else 0) else 0 := by
    by_cases hij : i = j
    · subst hij
      split <;> simp
    · split <;> simp [coeff_X_pow, hij]
  simp only [bitPolynomial, finsetSum_coeff, hterm, Finset.sum_ite_eq, Finset.mem_range]
  by_cases hi : i < n
  · rw [if_pos hi]
  · rw [if_neg hi, BitVec.getLsbD_of_ge v i (not_lt.mp hi), if_neg Bool.false_ne_true]

/-- XOR is the addition of GF(2) in every coefficient. -/
theorem bitPolynomial_xor {n : Nat} (v w : BitVec n) :
    bitPolynomial (v ^^^ w) = bitPolynomial v + bitPolynomial w := by
  ext i
  rw [coeff_add, coeff_bitPolynomial, coeff_bitPolynomial, coeff_bitPolynomial, BitVec.getLsbD_xor]
  cases v.getLsbD i <;> cases w.getLsbD i <;> decide

/-- Shifting a byte left multiplies by x, less the x^8 of the bit that is shifted out. -/
theorem X_mul_bitPolynomial (s : Byte) :
    X * bitPolynomial s = bitPolynomial (s <<< 1) + if s.getLsbD 7 then X ^ 8 else 0 := by
  have hcarry (i : Nat) : (if s.getLsbD 7 then X ^ 8 else 0 : (ZMod 2)[X]).coeff i =
      if i = 8 ∧ s.getLsbD 7 then 1 else 0 := by
    cases s.getLsbD 7 <;> simp [coeff_X_pow]
  ext i
  rw [coeff_add, hcarry, coeff_bitPolynomial, BitVec.getLsbD_shiftLeft]
  cases i with
  | zero => simp
  | succ i =>
    rw [coeff_X_mul, coeff_bitPolynomial]
    rcases lt_trichotomy i 7 with hi | rfl | hi
    · simp [show i + 1 < 8 by omega, show i ≠ 7 by omega]
    · simp
    · simp [BitVec.getLsbD_of_ge s i hi, show ¬ i + 1 < 8 by omega, show i ≠ 7 by omega]

/-- The polynomial that a value of POLY stands for: its eight coefficients and the implicit x^8 (R101). -/
noncomputable def crcDivisor (p : Byte) : (ZMod 2)[X] := X ^ 8 + bitPolynomial p

/-- One shift of R100 multiplies by x and subtracts the divisor if the bit shifted out was 1. -/
theorem bitPolynomial_crcShift (p s : Byte) :
    bitPolynomial (crcShift p s) = X * bitPolynomial s - if s.getLsbD 7 then crcDivisor p else 0 := by
  rw [X_mul_bitPolynomial, crcShift, crcDivisor]
  split
  · rw [bitPolynomial_xor, CharTwo.sub_eq_add]
    linear_combination -(CharTwo.add_self_eq_zero (X ^ 8 : (ZMod 2)[X]))
  · simp

/-- `n` shifts multiply by x^n, modulo the divisor. -/
theorem crcDivisor_dvd_crcShifts (p : Byte) (n : Nat) (s : Byte) :
    crcDivisor p ∣ bitPolynomial (crcShifts p n s) - X ^ n * bitPolynomial s := by
  induction n generalizing s with
  | zero => simp [crcShifts]
  | succ n ih =>
    have hone : crcDivisor p ∣ bitPolynomial (crcShift p s) - X * bitPolynomial s := by
      rw [bitPolynomial_crcShift]
      split <;> simp
    have hsum := dvd_add (ih (crcShift p s)) (hone.mul_left (X ^ n))
    rw [crcShifts]
    convert hsum using 1
    ring

/-- A byte step adds the byte and multiplies by x^8, modulo the divisor. -/
theorem crcDivisor_dvd_crc8Step (s b p : Byte) :
    crcDivisor p ∣ bitPolynomial (crc8Step s b p) - X ^ 8 * (bitPolynomial s + bitPolynomial b) := by
  rw [crc8Step, ← bitPolynomial_xor]
  exact crcDivisor_dvd_crcShifts p 8 (s ^^^ b)

/-- The span function computes `init * x^(8n) + data * x^8`, modulo the divisor (R102). -/
theorem crcDivisor_dvd_crc8 (init p : Byte) (data : List Byte) : crcDivisor p ∣ bitPolynomial (crc8 init p data) -
    (X ^ (8 * data.length) * bitPolynomial init + X ^ 8 * bytesPolynomial data) := by
  induction data generalizing init with
  | nil => simp [crc8, bytesPolynomial]
  | cons b data ih =>
    have hsum := dvd_add (ih (crc8Step init b p)) ((crcDivisor_dvd_crc8Step init b p).mul_left (X ^ (8 * data.length)))
    rw [crc8, bytesPolynomial, List.length_cons]
    convert hsum using 1
    ring

/-- Bits 0, 4 and 5 of 0x31 are set (R101). -/
theorem bitPolynomial_0x31 : bitPolynomial (0x31#8 : Byte) = 1 + X ^ 4 + X ^ 5 := by
  simp [bitPolynomial, Finset.sum_range_succ]

end Polynomial

/-- Settles O25, by `crcDivisor_dvd_crc8` and `bitPolynomial_0x31`. -/
theorem crcIsThePolynomialRemainder : Obligations.CrcIsThePolynomialRemainder := by
  refine ⟨crcDivisor_dvd_crc8, ?_⟩
  rw [bitPolynomial_0x31]
  ring

/-! ### The commands of the engine (R105-R107) -/

/-- Settles O27: the command by `exec_eq`, its illegal words by `decode_reserved`. -/
theorem crcinitLoadsTheInitialValue : Obligations.CrcinitLoadsTheInitialValue := by
  refine ⟨exec_eq .crcinit, decode_encode .crcinit, by decide, fun w hop hz => ?_, fun r v => rfl⟩
  rw [decode_reserved (f := .N) (by rw [hop]; decide) hz, hop]

/-- STATE after a CRCBYTE (R106). -/
theorem exec_crcbyte_crc {b : Byte} {s t : State} (h : exec (.crcbyte b) s = .next t) :
    t.regs.crc = crc8Step s.regs.crc b s.regs.poly := by
  rw [exec_next h]
  rfl

/-- Settles O28: the command by `exec_eq`, its corner cases by the laws of the byte step. -/
theorem crcbyteShiftsOneByte : Obligations.CrcbyteShiftsOneByte := by
  refine ⟨fun b => exec_eq (.crcbyte b), fun b => ⟨encodeB_eq_or 0x02#8 b, decode_encode _⟩, fun w hop hz => ?_,
    fun s t h => ?_, fun b s t hp h => ?_, by decide, by decide⟩
  · rw [decode_reserved (f := .B) (by rw [hop]; decide) hz, hop]
  · rw [exec_crcbyte_crc h, crc8Step_self]
  · rw [exec_crcbyte_crc h, hp, crc8Step_zero_poly]

/-- MATCH after a CRCCMP (R107). -/
theorem exec_crccmp_matched {b : Byte} {s t : State} (h : exec (.crccmp b) s = .next t) :
    t.regs.matched = decide (s.regs.crc = b) := by
  rw [exec_next h]
  rfl

/-- Flipping one of a byte's bits changes the byte. -/
theorem xor_bit_ne (b : Byte) {k : Nat} (hk : k < 8) : b ≠ b ^^^ (1#8 <<< k) := by
  have hbit : ∀ k < 8, 1#8 <<< k ≠ 0#8 := by decide
  exact fun h => hbit k hk ((BitVec.xor_right_inj b).mp (h.symm.trans BitVec.xor_zero.symm))

/-- Settles O29: the command by `exec_eq`, the single-bit difference by `xor_bit_ne`. -/
theorem crccmpComparesWithTheByte : Obligations.CrccmpComparesWithTheByte := by
  refine ⟨fun b => exec_eq (.crccmp b), fun b => ⟨encodeB_eq_or 0x03#8 b, decode_encode _⟩, fun k s t hk h => ?_,
    fun s t hs => ⟨fun h => ?_, fun h => ?_⟩⟩
  · rw [exec_crccmp_matched h, decide_eq_false (xor_bit_ne _ hk)]
  · simp [exec_crccmp_matched h, hs]
  · simp [exec_crccmp_matched h, hs]

/-! ### The writers of STATE (R108) -/

/-- A command that changes STATE is CRCINIT, CRCBYTE or SRESET. -/
theorem effect_crc {i : Instr} (hi : i ≠ .sreset) {r : Regs} (hne : (effect i r).crc ≠ r.crc) :
    (i = .crcinit ∧ (effect i r).crc = r.init) ∨
      ∃ b, i = .crcbyte b ∧ (effect i r).crc = crc8Step r.crc b r.poly := by
  cases i with
  | crcinit => exact .inl ⟨rfl, rfl⟩
  | crcbyte b => exact .inr ⟨b, rfl, rfl⟩
  | sreset => exact absurd rfl hi
  | _ => simp [effect] at hne

/-- A host write that changes STATE is one of CRC, and STATE takes bits 7:0 of the value (R66). -/
theorem writeReg_crc {r : Regs} {g : Option Reg} {v : Word} (hne : (r.writeReg g v).crc ≠ r.crc) :
    g = some .crc ∧ (r.writeReg g v).crc = v.extractLsb' 0 8 := by
  cases g with
  | none => exact absurd rfl hne
  | some g =>
    cases g with
    | crc => exact ⟨rfl, rfl⟩
    | _ => exact absurd rfl hne

/-- A step that changes STATE is one of the four kinds that R108 names. -/
theorem step_crc {s t : State} (hst : step s = .next t) (hne : t.regs.crc ≠ s.regs.crc) :
    s.nextResets = true ∨
    (s.nextCommand = some .crcinit ∧ t.regs.crc = s.regs.init) ∨
    (∃ b, s.nextCommand = some (.crcbyte b) ∧ t.regs.crc = crc8Step s.regs.crc b s.regs.poly) ∨
    (∃ v, s.nextWrites 0x10 v ∧ t.regs.crc = v.extractLsb' 0 8) := by
  cases regs_cases hst with
  | same h | illegal h => exact absurd (congrArg Regs.crc h) hne
  | reset _ hr => exact .inl hr
  | command i h hn hs =>
    rw [h] at hne ⊢
    rcases effect_crc hs hne with ⟨rfl, hc⟩ | ⟨b, rfl, hc⟩
    · exact .inr (.inl ⟨hn, hc⟩)
    · exact .inr (.inr (.inl ⟨b, hn, hc⟩))
  | write offset v h hw =>
    rw [h] at hne ⊢
    obtain ⟨hg, hc⟩ := writeReg_crc hne
    obtain rfl : 0x10 = offset := regAt_some hg
    exact .inr (.inr (.inr ⟨v, hw, hc⟩))

/-- Settles O30: `step_crc`, and the write of CRC by `step_registerWrite`. -/
theorem runningCrcHasFourWriters : Obligations.RunningCrcHasFourWriters :=
  ⟨fun _ _ => step_crc,
    fun _ _ _ h hr => ⟨_, step_registerWrite h hr (by decide) (by decide) (by decide), rfl⟩, fun _ => rfl⟩

/-! ### A span, one command per byte (R109) -/

/-- The commands of two sequences, one sequence after the other. -/
theorem execAll_append {is js : List Instr} {s t : State} (h : execAll is s = .next t) :
    execAll (is ++ js) s = execAll js t := by
  induction is generalizing s with
  | nil => rw [List.nil_append, Host.Outcome.next.inj h]
  | cons i is ih =>
    simp only [execAll, List.cons_append, exec_eq] at h ⊢
    exact ih h

/-- A CRCBYTE for each byte takes STATE to the CRC of the bytes, and changes nothing else. -/
theorem execAll_crcbytes (data : List Byte) (s : State) :
    execAll (data.map .crcbyte) s = .next (s.mapRegs fun r => r.setCrc (crc8 r.crc r.poly data)) := by
  induction data generalizing s with
  | nil => rfl
  | cons b data ih =>
    simp only [List.map_cons, execAll, exec_eq, ih]
    rfl

/-- Settles O31: CRCINIT starts the span from INIT, `execAll_crcbytes` goes through it, and its CRC equals itself. -/
theorem runningEngineComputesTheSpanCrc : Obligations.RunningEngineComputesTheSpanCrc := by
  intro data s
  have hspan : execAll (.crcinit :: data.map .crcbyte) s =
      .next { s with regs := { s.regs with crc := crc8 s.regs.init s.regs.poly data } } := by
    simp only [execAll, exec_eq, execAll_crcbytes]
    rfl
  refine ⟨hspan, ?_⟩
  rw [execAll_append hspan]
  simp [execAll, exec_eq, effect, crcMatches, State.mapRegs, Regs.setMatch]

end Sys2Proof.Machine
end

section
/-!
Proofs of the statements of 41_validate.md, with the gated-only invariant of R155. What a validation does is said once by
`validateField_pass` and `validateField_fail`; here stand what format V adds to the decoder, the invariant's preservation by
each operation, and the separation of the two fields: hiding a quantity before an operation hides no more than hiding it after.
-/

namespace Sys2Proof

/-! ### The words of format V (R84) -/

/-- A format V word is its opcode's pattern with the three operands put in (R84). -/
theorem encodeV_eq_or (op d0 d1 c : Byte) : encodeV op d0 d1 c =
    encodeN op ||| d0.zeroExtend 32 <<< 16 ||| d1.zeroExtend 32 <<< 8 ||| c.zeroExtend 32 := by
  have hN : encodeN op = op.setWidth 32 <<< 24 := by
    simpa [encodeN] using BitVec.setWidth_append_eq_shiftLeft_setWidth_or (b := op) (b' := 0#24) (w'' := 32)
  have hV := BitVec.setWidth_append_append_append_eq_shiftLeft_setWidth_or (b := op) (b' := d0) (b'' := d1) (b''' := c)
    (w'''' := 32)
  rw [hN]
  exact (BitVec.setWidth_eq _).symm.trans hV

/-- Every word with a format V opcode is the command of the opcode's row: no bit is reserved (R84). -/
theorem decode_formatV {w : Word} {m : Mnemonic} {op : Byte} (hr : ⟨m, encodeN op, Format.V.mask⟩ ∈ opcodeMap)
    (hop : opField w = op) : decode w = .ok (m.instr w) :=
  decode_of_hits hr ((hits_format_iff m .V op w).mpr ⟨hop, trivial⟩)

end Sys2Proof

namespace Sys2Proof.Machine

/-! ### The gated-only invariant (R130, R155) -/

section Gated

variable {r : Regs} (h : r.Gated)
include h

/-- A validation marks its own result stale and leaves what the other field's clause speaks of (R124, R125). -/
theorem Regs.Gated.validateField (q : Quantity) (d0 d1 c : Byte) : (r.validateField q d0 d1 c).Gated := by
  cases q with
  | temperature => exact { temperature := by simp, humidity := by simpa using h.humidity }
  | humidity => exact { temperature := by simpa using h.temperature, humidity := by simp }

/-- A gated conversion stores the conversion of the latch, which the gate found valid, or marks the result stale (R150). -/
theorem Regs.Gated.convertLatched {q : Quantity} {f : Half → Int} (hf : Converts q f) : (r.convertLatched q f).Gated := by
  rcases convertLatched_cases r q f with ⟨hv, e⟩ | ⟨-, e⟩ <;> rw [e]
  · cases hf with
    | fAT => exact { h with temperature := fun _ => ⟨hv, .inl rfl⟩ }
    | fBT => exact { h with temperature := fun _ => ⟨hv, .inr rfl⟩ }
    | fAH => exact { h with humidity := fun _ => ⟨hv, .inl rfl⟩ }
    | fBH => exact { h with humidity := fun _ => ⟨hv, .inr rfl⟩ }
  · cases q with
    | temperature => exact { h with temperature := by simp }
    | humidity => exact { h with humidity := by simp }

end Gated

theorem reset_gated : Regs.reset.Gated := invariantsHoldAtReset.2

/-- Every command but a direct conversion keeps the gated-only invariant. -/
theorem effect_gated {r : Regs} (h : r.Gated) {i : Instr} (hi : isDirect i = false) : (effect i r).Gated := by
  cases i with
  | nop => exact h
  | crcinit | crcbyte | crccmp | clrstat => exact { h with }
  | valt d0 d1 c => exact h.validateField .temperature d0 d1 c
  | valh d0 d1 c => exact h.validateField .humidity d0 d1 c
  | convat => exact h.convertLatched .fAT
  | convah => exact h.convertLatched .fAH
  | convbt => exact h.convertLatched .fBT
  | convbh => exact h.convertLatched .fBH
  | convrat | convrah | convrbt | convrbh => cases hi
  | sreset => exact reset_gated

/-- Settles O2: a step resets, executes a command that is no direct conversion, or writes nothing the invariant speaks of. -/
theorem gatedStepsKeepResultsTiedToAcceptedFields : Obligations.GatedStepsKeepResultsTiedToAcceptedFields := by
  intro s t hg hd hst
  rcases step_regs hst with ⟨-, ht⟩ | ⟨i, hn, -, ht⟩ | ⟨-, _, _, _, _, _, ht⟩ <;> rw [ht]
  · exact reset_gated
  · exact effect_gated hg (hd i hn)
  · exact { hg with }

/-! ### A step as a function of its event and the registers -/

/-- What an aligned 32-bit write does to the registers (R66, R80, R89). -/
def writeEffect (offset : Nat) (v : Word) (r : Regs) : Regs :=
  if offset = 0 then
    match decode v with
    | .ok i => effect i r
    | .error _ => r.setIllcmd
  else r.writeReg (regAt offset) v

/-- What the next event, if any, does to the registers where the step answers a next state. -/
def eventEffect : Option Event → Regs → Regs
  | none, r => r
  | some .powerUp, _ => Regs.reset
  | some (.resetInput true), _ => Regs.reset
  | some (.resetInput false), r => r
  | some (.access (.read _ _)), r => r
  | some (.access (.write offset data)), r =>
    if (Access.write offset data).wellSized then writeEffect offset.toNat (wordOfLanes data) r else r

/-- The registers after a step depend on its event and the registers before it alone. -/
theorem step_eventEffect {s t : State} (hst : step s = .next t) : t.regs = eventEffect s.nextEvent s.regs := by
  cases step_cases hst with
  | idle h ht => simp [ht, State.nextEvent, h, eventEffect]
  | resetInput asserted rest h ht => cases asserted <;> simp [ht, State.nextEvent, h, eventEffect, driveReset]
  | powerUp rest h ht => simp [ht, State.nextEvent, h, eventEffect]
  | accessError a rest h _ _ hs ht => cases a <;> simp [ht, State.nextEvent, h, eventEffect, hs]
  | read offset size rest h _ _ _ ht => simp [ht, State.nextEvent, h, eventEffect]
  | command i data rest h _ hl hd ht =>
    have hs : (Access.write 0 data).wellSized = true := (Access.wellSized_iff _).mpr ⟨hl, rfl⟩
    simp [ht, State.nextEvent, h, eventEffect, hs, writeEffect, hd]
  | illegal data rest h _ hl e hd ht =>
    have hs : (Access.write 0 data).wellSized = true := (Access.wellSized_iff _).mpr ⟨hl, rfl⟩
    simp [ht, State.nextEvent, h, eventEffect, hs, writeEffect, hd]
  | write offset data rest h _ hl h0 hlt h4 ht =>
    obtain ⟨-, hs⟩ := accepted_access (a := .write offset data) rfl hl hlt h4
    simp [ht, State.nextEvent, h, eventEffect, hs, writeEffect, h0.ne']

/-! ### The two fields apart (R126) -/

/-- The field a quantity is not. -/
def Quantity.other : Quantity → Quantity
  | .temperature => .humidity
  | .humidity => .temperature

theorem Quantity.eq_or_eq_other (p q : Quantity) : p = q ∨ p = q.other := by
  cases p <;> cases q <;> simp [Quantity.other]

/-- The registers with one field's state blanked: `withoutTemperature` or `withoutHumidity`. -/
def Regs.without (r : Regs) : Quantity → Regs
  | .temperature => r.withoutTemperature
  | .humidity => r.withoutHumidity

/-- The registers with one field's state and CONVERR hidden: `hideTemperature` or `hideHumidity`. -/
def Regs.hide (r : Regs) : Quantity → Regs
  | .temperature => r.hideTemperature
  | .humidity => r.hideHumidity

section Hide

variable (r : Regs) (p q : Quantity)

theorem Regs.hide_hide : (r.hide p).hide p = r.hide p := by
  cases p <;> rfl

/-- A validation does not read the other field, nor write it (R126). -/
theorem validateField_without_other (d0 d1 c : Byte) :
    (r.validateField q d0 d1 c).without q.other = (r.without q.other).validateField q d0 d1 c := by
  have hread : fieldPasses (r.without q.other).chken (fieldCrc (r.without q.other) d0 d1) c =
      fieldPasses r.chken (fieldCrc r d0 d1) c := by cases q <;> rfl
  rcases validateField_cases r q d0 d1 c with ⟨h, e⟩ | ⟨h, e⟩
  · rw [e, validateField_pass (hread.trans h)]
    cases q <;> rfl
  · rw [e, validateField_fail (hread.trans h)]
    cases q <;> rfl

/-- What a validation writes outside a field does not depend on that field (R126). -/
theorem validateField_hide (d0 d1 c : Byte) :
    (r.validateField q d0 d1 c).hide p = ((r.hide p).validateField q d0 d1 c).hide p := by
  have hread : fieldPasses (r.hide p).chken (fieldCrc (r.hide p) d0 d1) c =
      fieldPasses r.chken (fieldCrc r d0 d1) c := by cases p <;> rfl
  rcases validateField_cases r q d0 d1 c with ⟨h, e⟩ | ⟨h, e⟩
  · rw [e, validateField_pass (hread.trans h)]
    cases p <;> cases q <;> rfl
  · rw [e, validateField_fail (hread.trans h)]
    cases p <;> cases q <;> rfl

/-- A gated conversion writes its own field and CONVERR alone (R150). -/
theorem convertLatched_hide_self (f : Half → Int) : (r.convertLatched q f).hide q = r.hide q := by
  rcases convertLatched_cases r q f with ⟨-, e⟩ | ⟨-, e⟩ <;> rw [e] <;> cases q <;> rfl

/-- What a gated conversion writes outside a field does not depend on that field (R150). -/
theorem convertLatched_hide (f : Half → Int) :
    (r.convertLatched q f).hide p = ((r.hide p).convertLatched q f).hide p := by
  obtain rfl | rfl := Quantity.eq_or_eq_other p q
  · rw [convertLatched_hide_self, convertLatched_hide_self, Regs.hide_hide]
  · have hread : (r.hide q.other).valid q = r.valid q := by cases q <;> rfl
    rcases convertLatched_cases r q f with ⟨h, e⟩ | ⟨h, e⟩
    · rw [e, convertLatched_valid (hread.trans h)]
      cases q <;> rfl
    · rw [e, convertLatched_refused (hread.trans h)]
      cases q <;> rfl

/-- What a command writes outside a field does not depend on that field. -/
theorem effect_hide (i : Instr) : (effect i r).hide p = (effect i (r.hide p)).hide p := by
  cases i with
  | valt d0 d1 c => exact validateField_hide r p .temperature d0 d1 c
  | valh d0 d1 c => exact validateField_hide r p .humidity d0 d1 c
  | convat => exact convertLatched_hide r p .temperature fAT
  | convah => exact convertLatched_hide r p .humidity fAH
  | convbt => exact convertLatched_hide r p .temperature fBT
  | convbh => exact convertLatched_hide r p .humidity fBH
  | _ => cases p <;> rfl

/-- A host's write of a register neither reads nor writes a field (R66). -/
theorem writeReg_hide (g : Option Reg) (v : Word) : (r.writeReg g v).hide p = ((r.hide p).writeReg g v).hide p := by
  cases g with
  | none => exact (r.hide_hide p).symm
  | some g => cases g <;> cases p <;> rfl

/-- What an aligned 32-bit write writes outside a field does not depend on that field. -/
theorem writeEffect_hide (offset : Nat) (v : Word) :
    (writeEffect offset v r).hide p = (writeEffect offset v (r.hide p)).hide p := by
  unfold writeEffect
  split
  · cases decode v with
    | ok i => exact effect_hide r p i
    | error _ => cases p <;> rfl
  · exact writeReg_hide r p _ v

/-- What an event writes outside a field does not depend on that field. -/
theorem eventEffect_hide (e : Option Event) : (eventEffect e r).hide p = (eventEffect e (r.hide p)).hide p := by
  match e with
  | none | some (.resetInput false) | some (.access (.read _ _)) => exact (r.hide_hide p).symm
  | some .powerUp | some (.resetInput true) => rfl
  | some (.access (.write offset data)) =>
    simp only [eventEffect]
    split
    · exact writeEffect_hide r p _ _
    · exact (r.hide_hide p).symm

end Hide

/-- Settles O37: both steps perform the same event, and `eventEffect_hide` reduces its effect on either state to its effect
on the registers with the field hidden, in which the states agree. -/
theorem noStepCarriesOneFieldIntoTheOther : Obligations.NoStepCarriesOneFieldIntoTheOther := by
  intro s u t v hpending _ hst huv
  have hevent : s.nextEvent = u.nextEvent := congrArg List.head? hpending
  have key (q : Quantity) (h : s.regs.hide q = u.regs.hide q) : t.regs.hide q = v.regs.hide q :=
    calc t.regs.hide q = (eventEffect s.nextEvent (s.regs.hide q)).hide q := by
          rw [step_eventEffect hst, eventEffect_hide]
      _ = (eventEffect u.nextEvent (u.regs.hide q)).hide q := by rw [hevent, h]
      _ = v.regs.hide q := by rw [step_eventEffect huv, ← eventEffect_hide]
  exact ⟨key .humidity, key .temperature⟩

/-! ### VALT and VALH (R123-R129) -/

/-- The next state of a command, from its effect on the registers. -/
theorem exec_of_effect {i : Instr} {s : State} {r : Regs} (h : effect i s.regs = r) :
    exec i s = .next { s with regs := r } := by
  rw [exec_eq, State.mapRegs, h]

/-- A field fails exactly when checksum mode is on and the CRC differs (R121, R123). -/
theorem fieldPasses_eq_false_iff {chken : Bool} {computed c : Byte} :
    fieldPasses chken computed c = false ↔ ¬ (chken = false ∨ computed = c) := by
  rw [← fieldPasses_iff, Bool.not_eq_true]

/-- With checksum mode off every field passes (R123). -/
theorem fieldPasses_disabled (computed c : Byte) : fieldPasses false computed c = true := rfl

/-- With checksum mode on equality decides (R121). -/
theorem fieldPasses_enabled (computed c : Byte) : fieldPasses true computed c = decide (computed = c) := rfl

/-- With INIT 0 the CRC of two zero bytes is 0, whatever POLY is (R124). -/
theorem crc8_zero_field (p : Byte) : crc8 0x00#8 p [0x00#8, 0x00#8] = 0x00#8 := by
  simp only [crc8, crc8Step_self]

/-- Settles O32: the two outcomes of `validateField`, and the words by `decode_formatV` and `encodeV_eq_or`. -/
theorem valtJudgesTheTemperatureField : Obligations.ValtJudgesTheTemperatureField := by
  refine ⟨fun d0 d1 c s => ⟨fun h => ?_, fun h => ?_⟩, fun w hop => ?_, encodeV_eq_or 0x10#8, crc8_zero_field,
    by decide +kernel, by decide⟩
  · exact exec_of_effect (validateField_pass (q := .temperature) (fieldPasses_iff.mpr h))
  · exact exec_of_effect (validateField_fail (q := .temperature) (fieldPasses_eq_false_iff.mpr h))
  · exact decode_formatV (m := .valt) (op := 0x10#8) (by decide) hop

/-- Settles O33, as O32 over the humidity field. -/
theorem valhJudgesTheHumidityField : Obligations.ValhJudgesTheHumidityField := by
  refine ⟨fun d0 d1 c s => ⟨fun h => ?_, fun h => ?_⟩, fun w hop => ?_, encodeV_eq_or 0x11#8, crc8_zero_field,
    by decide +kernel, by decide⟩
  · exact exec_of_effect (validateField_pass (q := .humidity) (fieldPasses_iff.mpr h))
  · exact exec_of_effect (validateField_fail (q := .humidity) (fieldPasses_eq_false_iff.mpr h))
  · exact decode_formatV (m := .valh) (op := 0x11#8) (by decide) hop

/-- Settles O34: the verdict is `fieldPasses`, which compares with checksum mode on alone. -/
theorem checksumModeDecidesWhetherTheFieldIsCompared : Obligations.ChecksumModeDecidesWhetherTheFieldIsCompared := by
  intro d0 d1 c s t
  refine ⟨fun hc h => ?_, fun hc h => ?_, fun hc h => ?_, fun hc h => ?_⟩
  · simp [exec_next h, effect, hc, fieldPasses_disabled, rawOfField, fieldCrc]
  · simp [exec_next h, effect, hc, fieldPasses_disabled, rawOfField, fieldCrc]
  · simp [exec_next h, effect, hc, fieldPasses_enabled, fieldCrc]
  · simp [exec_next h, effect, hc, fieldPasses_enabled, fieldCrc]

/-- Settles O35: with CHKEN = 1 the verdict is the equality of O34, which `xor_bit_ne` refutes for a flipped bit. -/
theorem exactlyOneChecksumBytePasses : Obligations.ExactlyOneChecksumBytePasses := by
  intro d0 d1 s hc
  refine ⟨fun c t => ?_, fun k t hk => ?_⟩
  · obtain ⟨-, -, hT, hH⟩ := checksumModeDecidesWhetherTheFieldIsCompared d0 d1 c s t
    refine ⟨fun h => ?_, fun h => ?_⟩
    · obtain ⟨hv, -⟩ := hT hc h
      rw [hv, decide_eq_true_iff, eq_comm]
    · obtain ⟨hv, -⟩ := hH hc h
      rw [hv, decide_eq_true_iff, eq_comm]
  · obtain ⟨-, -, hT, hH⟩ := checksumModeDecidesWhetherTheFieldIsCompared d0 d1
      (crc8 s.regs.init s.regs.poly [d0, d1] ^^^ (1#8 <<< k)) s t
    rw [decide_eq_false (xor_bit_ne _ hk)] at hT hH
    refine ⟨fun h => ?_, fun h => ?_⟩
    · obtain ⟨hv, he⟩ := hT hc h
      exact ⟨hv, by rw [he, hv, Bool.not_false]⟩
    · obtain ⟨hv, he⟩ := hH hc h
      exact ⟨hv, by rw [he, hv, Bool.not_false]⟩

/-- Settles O36: the field lemmas for what is left, `validateField_without_other` for what is not read. -/
theorem validationsAreIndependent : Obligations.ValidationsAreIndependent := by
  intro d0 d1 c s u t v
  refine ⟨fun h => ?_, fun h => ?_, fun heq h h' => ?_, fun heq h h' => ?_⟩
  · simp [exec_next h, effect, Regs.humidityPart]
  · simp [exec_next h, effect, Regs.temperaturePart]
  · have hblank (r : Regs) : (effect (.valt d0 d1 c) r).withoutHumidity = effect (.valt d0 d1 c) r.withoutHumidity :=
      validateField_without_other r .temperature d0 d1 c
    rw [exec_next h, exec_next h', State.mapRegs_regs, State.mapRegs_regs, hblank, hblank, heq]
  · have hblank (r : Regs) :
        (effect (.valh d0 d1 c) r).withoutTemperature = effect (.valh d0 d1 c) r.withoutTemperature :=
      validateField_without_other r .humidity d0 d1 c
    rw [exec_next h, exec_next h', State.mapRegs_regs, State.mapRegs_regs, hblank, hblank, heq]

/-- The two fields' validations commute but for LASTCRC, which the later one writes (R127). -/
theorem validateField_comm (r : Regs) (f0 f1 f2 f3 f4 f5 : Byte) :
    ((r.validateField .temperature f0 f1 f2).validateField .humidity f3 f4 f5).setLastCrc 0#8 =
      ((r.validateField .humidity f3 f4 f5).validateField .temperature f0 f1 f2).setLastCrc 0#8 := by
  simp [Regs.setLastCrc]

/-- Settles O38, by `validateField_comm` and the fields a validation leaves. -/
theorem validationOrderChangesOnlyLastcrc : Obligations.ValidationOrderChangesOnlyLastcrc := by
  intro f0 f1 f2 f3 f4 f5 s t u ht hu
  rw [execAll_pair] at ht hu
  obtain rfl := Host.Outcome.next.inj ht
  obtain rfl := Host.Outcome.next.inj hu
  refine ⟨validateField_comm s.regs f0 f1 f2 f3 f4 f5, ?_, ?_, fun hc hpass hfail => ?_⟩
  · simp [effect, fieldCrc]
  · simp [effect, fieldCrc]
  · simp [effect, hc, fieldPasses_enabled, fieldCrc, hpass, hfail]

end Sys2Proof.Machine
end

section
/-!
Proofs of the statements of 42_convert.md. First what the words of format R are; then the four functions: the mask, the
rational formulas of the source, whose floors they are, and the patterns of their results; then the gated
conversions, whose outcomes `exec_gated` says once for every quantity and function, and the direct ones.
-/

namespace Sys2Proof

/-! ### The words of format R (R86) -/

/-- A format R word is its opcode's pattern with the operand put in (R86). -/
theorem encodeR_eq_or (op : Byte) (raw : Half) : encodeR op raw = encodeN op ||| raw.zeroExtend 32 := by
  have h := Machine.word_eq_or .R op (encodeR op raw)
  rwa [Format.operands, Format.word, Laws.rawField_encodeR, Machine.operandBits, BitVec.ofNat_toNat] at h

/-- A word with a format R opcode and nothing in the reserved bits is the command of the opcode's row (R86). -/
theorem decode_formatR {w : Word} {m : Mnemonic} {op : Byte} (hr : ⟨m, encodeN op, Format.R.mask⟩ ∈ opcodeMap)
    (hop : opField w = op) (hz : w.extractLsb' 16 8 = 0#8) : decode w = .ok (m.instr w) :=
  decode_of_hits hr ((hits_format_iff m .R op w).mpr ⟨hop, hz⟩)

end Sys2Proof

namespace Sys2Proof.Machine

/-! ### The family A mask (R141) -/

theorem maskA_maskA (raw : Half) : maskA (maskA raw) = maskA raw := by
  rw [maskA, maskA, BitVec.and_assoc, BitVec.and_self]

theorem fAT_maskA (raw : Half) : fAT (maskA raw) = fAT raw := by
  rw [fAT, maskA_maskA, fAT]

theorem fAH_maskA (raw : Half) : fAH (maskA raw) = fAH raw := by
  rw [fAH, maskA_maskA, fAH]

/-- Family B uses the bits that family A masks: the largest raw value is a witness. -/
theorem exists_fBT_maskA_ne : ∃ raw : Half, fBT raw ≠ fBT (maskA raw) := ⟨0xFFFF#16, by decide⟩

theorem exists_fBH_maskA_ne : ∃ raw : Half, fBH raw ≠ fBH (maskA raw) := ⟨0xFFFF#16, by decide⟩

/-- Settles O39: masking twice is masking once, which the family A functions do themselves. -/
theorem familyAMasksTheStatusBits : Obligations.FamilyAMasksTheStatusBits :=
  ⟨fun raw => ⟨(fAT_maskA raw).symm, (fAH_maskA raw).symm⟩, (fAT_maskA 0x0003#16).symm, (fAH_maskA 0x0003#16).symm,
    exists_fBT_maskA_ne, exists_fBH_maskA_ne⟩

/-! ### The formulas of the source (R142-R145, R148) -/

/-- One hundred times the source's temperature of family A, exactly, over the masked raw value `m` (R142, R148). -/
theorem temperatureReference_eq (m : Nat) :
    (100 : ℚ) * (m / 65536 * 175.72 - 46.85) = ((m * 17572 : ℤ) : ℚ) / (65536 : ℕ) - (4685 : ℤ) := by
  push_cast
  ring

/-- One hundred times the source's humidity of family A, exactly, over the masked raw value `m` (R143, R148). -/
theorem humidityReference_eq (m : Nat) :
    (100 : ℚ) * (m / 65536 * 125 - 6) = ((m * 12500 : ℤ) : ℚ) / (65536 : ℕ) - (600 : ℤ) := by
  push_cast
  ring

theorem fAT_eq_floor (raw : Half) : fAT raw = ⌊(100 : ℚ) * ((maskA raw).toNat / 65536 * 175.72 - 46.85)⌋ := by
  rw [temperatureReference_eq, Int.floor_sub_intCast, Rat.floor_intCast_div_natCast, fAT]
  rfl

theorem fAH_eq_floor (raw : Half) : fAH raw = ⌊(100 : ℚ) * ((maskA raw).toNat / 65536 * 125 - 6)⌋ := by
  rw [humidityReference_eq, Int.floor_sub_intCast, Rat.floor_intCast_div_natCast, fAH]
  rfl

/-- Settles O40: the scaled reference is a quotient less an integer, whose floor is the integer formula. -/
theorem familyAIsTheFloorOfTheReference : Obligations.FamilyAIsTheFloorOfTheReference :=
  fun raw => ⟨rfl, fAT_eq_floor raw, rfl, fAH_eq_floor raw⟩

/-- Over the rationals a product is divided exactly, and the floor of that is the integer division (R144, R145). -/
theorem floor_mul_div (n k d : Nat) : ⌊((n : ℚ) * k) / d⌋ = ((n : ℤ) * k) / d := by
  have h := Rat.floor_intCast_div_natCast ((n : ℤ) * k) d
  rwa [Int.cast_mul, Int.cast_natCast, Int.cast_natCast] at h

/-- Settles O41: the floor of the rational quotient is the integer division of the product. -/
theorem familyBIsTheIntegerFormula : Obligations.FamilyBIsTheIntegerFormula := fun raw =>
  ⟨congrArg (-45000 + ·) (floor_mul_div raw.toNat 175000 65535).symm, (floor_mul_div raw.toNat 10000 65535).symm⟩

/-! ### Ranges and monotonicity (R147, R148) -/

/-- Settles O42: the boundary values by evaluation, the ranges by the functions' bounds. -/
theorem conversionRangesAndBoundaries : Obligations.ConversionRangesAndBoundaries := by
  refine ⟨by decide, fun raw => ?_⟩
  obtain ⟨hAT, hAT'⟩ := fAT_bounds raw
  obtain ⟨hAH, hAH'⟩ := fAH_bounds raw
  obtain ⟨hBT, hBT'⟩ := fBT_bounds raw
  exact ⟨hAT, hAT', hAH, hAH', hBT, hBT', fBH_bounds raw⟩

section Monotone

variable {a b : Half} (h : a.toNat ≤ b.toNat)
include h

theorem maskA_toNat_mono : (maskA a).toNat ≤ (maskA b).toNat := by
  rw [maskA_toNat, maskA_toNat]
  omega

theorem fAT_mono : fAT a ≤ fAT b := by
  have := maskA_toNat_mono h
  rw [fAT, fAT]
  omega

theorem fAH_mono : fAH a ≤ fAH b := by
  have := maskA_toNat_mono h
  rw [fAH, fAH]
  omega

theorem fBT_mono : fBT a ≤ fBT b := by
  rw [fBT, fBT]
  omega

theorem fBH_mono : fBH a ≤ fBH b := by
  rw [fBH, fBH]
  omega

end Monotone

/-- Settles O43: the distance from the reference to its floor is its fractional part. -/
theorem conversionsAreMonotoneAndClose : Obligations.ConversionsAreMonotoneAndClose := by
  refine ⟨fun a b h => ⟨fAT_mono h, fAH_mono h, fBT_mono h, fBH_mono h⟩, fun raw => ?_⟩
  rw [fAT_eq_floor, fAH_eq_floor]
  exact ⟨Int.fract_nonneg _, Int.fract_lt_one _, Int.fract_nonneg _, Int.fract_lt_one _, rfl, rfl⟩

/-! ### The result's pattern (R160) -/

/-- Bit 31 of an s32's pattern is its sign (R9, R160). -/
theorem toS32_getLsbD_31 {v : Int} (h : -2 ^ 31 ≤ v) (h' : v < 2 ^ 31) : (toS32 v).getLsbD 31 = true ↔ v < 0 := by
  have hsign : (toS32 v).getLsbD 31 = decide ((toS32 v).toInt < 0) :=
    (BitVec.msb_eq_getLsbD_last _).symm.trans BitVec.msb_eq_toInt
  rw [hsign, toS32_toInt h h', decide_eq_true_iff]

/-- Every conversion's result is in the range of R160. -/
theorem conversion_bounds {f : Half → Int} (hf : f ∈ [fAT, fAH, fBT, fBH]) (raw : Half) :
    -45000 ≤ f raw ∧ f raw ≤ 130000 := by
  have hAT := fAT_bounds raw
  have hAH := fAH_bounds raw
  have hBH := fBH_bounds raw
  simp only [List.mem_cons, List.not_mem_nil, or_false] at hf
  rcases hf with rfl | rfl | rfl | rfl
  · omega
  · omega
  · exact fBT_bounds raw
  · omega

/-- Settles O44: the range of R160 lies in s32's, where the pattern's sign and value are the result's. -/
theorem resultPatternsReadBackAsTheResult : Obligations.ResultPatternsReadBackAsTheResult := by
  intro raw f hf
  obtain ⟨hmin, hmax⟩ := conversion_bounds hf raw
  exact ⟨hmin, hmax, toS32_toInt (by omega) (by omega), toS32_getLsbD_31 (by omega) (by omega)⟩

/-! ### Gated conversions (R150-R154) -/

/-- A gated conversion does not consume what it reads, so a second one writes the same (R151). -/
theorem convertLatched_convertLatched (r : Regs) (q : Quantity) (f : Half → Int) :
    (r.convertLatched q f).convertLatched q f = r.convertLatched q f := by
  rcases convertLatched_cases r q f with ⟨hv, e⟩ | ⟨hv, e⟩ <;> rw [e]
  · have hv' : (r.storeResult q (toS32 (f (r.raw q)))).valid q = true := by cases q <;> exact hv
    rw [convertLatched_valid hv']
    cases q <;> rfl
  · have hv' : (r.clearResult q).setConverr.valid q = false := by cases q <;> exact hv
    rw [convertLatched_refused hv']
    cases q <;> rfl

section Gated

variable {i : Instr} {q : Quantity} {f : Half → Int} (hi : ∀ r, effect i r = r.convertLatched q f)
include hi

/-- The two outcomes of a gated conversion command (R150). -/
theorem exec_gated (s : State) :
    (s.regs.valid q = true → exec i s =
      .next { s with regs := s.regs.storeResult q (toS32 (f (s.regs.raw q))) }) ∧
    (s.regs.valid q = false → exec i s = .next { s with regs := (s.regs.clearResult q).setConverr }) :=
  ⟨fun h => exec_of_effect ((hi s.regs).trans (convertLatched_valid h)),
    fun h => exec_of_effect ((hi s.regs).trans (convertLatched_refused h))⟩

/-- Repeating a gated conversion command changes nothing more (R151). -/
theorem exec_gated_repeat (s t : State) (h : exec i s = .next t) : exec i t = .next t := by
  obtain rfl := exec_next h
  refine exec_of_effect ?_
  rw [State.mapRegs_regs, hi, hi, convertLatched_convertLatched]

end Gated

/-- The raw values that family A humidity sends below 0 and above 10000 (R152). -/
theorem fAH_thresholds (raw : Half) :
    (fAH raw < 0 ↔ raw.toNat ≤ 0x0C4B) ∧ (10000 < fAH raw ↔ 0xD91C ≤ raw.toNat) := by
  rw [fAH, maskA_toNat]
  omega

/-- Settles O45: `exec_gated` and `exec_gated_repeat` on the temperature field, and family A's mask. -/
theorem convatConvertsOrRefuses : Obligations.ConvatConvertsOrRefuses :=
  ⟨exec_gated (i := .convat) (q := .temperature) (f := fAT) fun _ => rfl, by decide, decode_encode .convat,
    exec_gated_repeat (i := .convat) (q := .temperature) (f := fAT) fun _ => rfl,
    fun raw => (fAT_maskA raw).symm, rfl, by decide⟩

/-- Settles O46, as O45 over the humidity field, with `fAH_thresholds`. -/
theorem convahConvertsOrRefuses : Obligations.ConvahConvertsOrRefuses :=
  ⟨exec_gated (i := .convah) (q := .humidity) (f := fAH) fun _ => rfl, by decide, decode_encode .convah,
    exec_gated_repeat (i := .convah) (q := .humidity) (f := fAH) fun _ => rfl,
    fun raw => (fAH_maskA raw).symm, rfl, fAH_thresholds, by decide⟩

/-- Settles O47: `exec_gated` on the temperature field; family B does not mask. -/
theorem convbtConvertsOrRefuses : Obligations.ConvbtConvertsOrRefuses :=
  ⟨exec_gated (i := .convbt) (q := .temperature) (f := fBT) fun _ => rfl, by decide, decode_encode .convbt,
    exists_fBT_maskA_ne, by decide⟩

/-- Settles O48: `exec_gated` on the humidity field. -/
theorem convbhConvertsOrRefuses : Obligations.ConvbhConvertsOrRefuses :=
  ⟨exec_gated (i := .convbh) (q := .humidity) (f := fBH) fun _ => rfl, by decide, decode_encode .convbh, by decide⟩

/-! ### Direct conversions (R155-R159) -/

/-- Settles O49: no gate is read, and a format R word is legal exactly when bits 23:16 are zero. -/
theorem convratConvertsItsOperand : Obligations.ConvratConvertsItsOperand := by
  refine ⟨fun raw => exec_eq (.convrat raw), encodeR_eq_or 0x30#8, fun w hop => ⟨fun hz => ?_, fun hz => ?_⟩, by decide⟩
  · exact decode_formatR (m := .convrat) (op := 0x30#8) (by decide) hop hz
  · have hlisted : opField w ∈ Format.R.opcodes := by rw [hop]; decide
    rw [decode_reserved hlisted hz, hop]

/-- Settles O50: no gate is read, and the word is format R's. -/
theorem convrahConvertsItsOperand : Obligations.ConvrahConvertsItsOperand :=
  ⟨fun raw => exec_eq (.convrah raw), encodeR_eq_or 0x31#8,
    fun _ => decode_formatR (m := .convrah) (op := 0x31#8) (by decide), by decide⟩

/-- Settles O51: no gate is read, and the word is format R's. -/
theorem convrbtConvertsItsOperand : Obligations.ConvrbtConvertsItsOperand :=
  ⟨fun raw => exec_eq (.convrbt raw), encodeR_eq_or 0x32#8,
    fun _ => decode_formatR (m := .convrbt) (op := 0x32#8) (by decide), by decide⟩

/-- Settles O52: no gate is read, and the word is format R's. -/
theorem convrbhConvertsItsOperand : Obligations.ConvrbhConvertsItsOperand :=
  ⟨fun raw => exec_eq (.convrbh raw), encodeR_eq_or 0x33#8,
    fun _ => decode_formatR (m := .convrbh) (op := 0x33#8) (by decide), by decide⟩

end Sys2Proof.Machine
end

section
/-!
Proofs of the statements of 43_control.md. NOP and CLRSTAT are format N commands: what each does is `exec_eq`, and a word with
the opcode and an operand bit set is refused by `decode_reserved`. On STATUS, CLRSTAT is a mask.
-/

namespace Sys2Proof.Machine

/-- Settles O53: the command by `exec_eq`, its illegal words by `decode_reserved`. -/
theorem nopChangesNothing : Obligations.NopChangesNothing := by
  refine ⟨exec_eq .nop, rfl, decode_encode .nop, fun w hop hz => ?_⟩
  rw [decode_reserved (f := .N) (by rw [hop]; decide) hz, hop]

/-- CLRSTAT keeps bits 6:0 of STATUS and clears the two sticky bits, 8 and 7 (R29, R171). -/
theorem statusWord_clearSticky (r : Regs) : r.clearSticky.statusWord = r.statusWord &&& 0x7F#32 := by
  apply BitVec.eq_of_getLsbD_eq
  intro k _
  rw [BitVec.getLsbD_and, statusWord_getLsbD, statusWord_getLsbD]
  rcases lt_or_ge k 9 with h | h
  · interval_cases k <;> simp
  · simp [h]

/-- Settles O54: the command by `exec_eq`, its illegal words by `decode_reserved`, and the example by the mask of
`statusWord_clearSticky`. -/
theorem clrstatClearsTheStickyBits : Obligations.ClrstatClearsTheStickyBits := by
  refine ⟨exec_eq .clrstat, rfl, decode_encode .clrstat, fun w s hop hz => ?_, fun s t hs h => ?_⟩
  · exact execWord_illegal (decode_reserved (f := .N) (by rw [hop]; decide) hz) s
  · have hstatus : s.regs.statusWord = 0x180#32 := hs
    rw [exec_next h]
    calc s.regs.clearSticky.statusWord
        = 0x180#32 &&& 0x7F#32 := by rw [statusWord_clearSticky, hstatus]
      _ = 0#32 := by decide

end Sys2Proof.Machine
end

section
/-!
Proofs of the statements of 70_reset_and_hazards.md. The resets of R201 are one case of `regs_cases`. A STATUS bit that no host
write reaches and that reset clears is set by a command alone (`step_sets`), and which commands those are is said per bit.
-/

namespace Sys2Proof.Machine

/-! ### The values of reset (R200) -/

/-- CTRL and POLY are the only registers that reset leaves nonzero (R200). -/
theorem reset_readWindow (off : Nat) :
    Regs.reset.readWindow off = if off = 0x04 then 1#32 else if off = 0x08 then 0x31#32 else 0#32 := by
  cases hg : regAt off with
  | some g =>
    obtain rfl := regAt_some hg
    cases g <;> rfl
  | none =>
    have hctrl : off ≠ 0x04 := by rintro rfl; exact absurd hg (by decide)
    have hpoly : off ≠ 0x08 := by rintro rfl; exact absurd hg (by decide)
    rw [Regs.readWindow, hg, if_neg hctrl, if_neg hpoly]

/-- Settles O55, by `reset_readWindow`. -/
theorem resetGivesEveryFieldItsValue : Obligations.ResetGivesEveryFieldItsValue := ⟨rfl, reset_readWindow⟩

/-! ### The sources of reset (R201, R172) -/

/-- Power-up resets the registers and leaves the platform's side (R201). -/
theorem step_powerUp {s : State} {rest : List Event} (h : s.pending = .powerUp :: rest) :
    step s = .next { s with regs := Regs.reset, pending := rest } := by
  simp only [step, performNext, h, performEvent, State.resetRegs]

/-- Asserting the reset input resets the registers, and the input stays asserted (R201). -/
theorem step_assertReset {s : State} {rest : List Event} (h : s.pending = .resetInput true :: rest) :
    step s = .next { s with regs := Regs.reset, resetAsserted := true, pending := rest } := by
  simp only [step, performNext, h, performEvent, driveReset, State.resetRegs, if_true]

/-- A step that performs a reset, from whichever source, leaves the reset registers (R201). -/
theorem step_resets {s t : State} (hr : s.nextResets = true) (hst : step s = .next t) : t.regs = Regs.reset := by
  cases regs_cases hst with
  | reset h => exact h
  | same _ _ hr' | command _ _ _ _ hr' | illegal _ _ hr' | write _ _ _ _ _ _ _ _ hr' => simp [hr] at hr'

/-- Settles O56, one lemma per source; `step_access_released` rules out an access during reset. -/
theorem theThreeResetSourcesAgree : Obligations.TheThreeResetSourcesAgree := by
  refine ⟨fun s => ⟨_, exec_eq .sreset s, rfl⟩, ⟨by decide, decode_encode .sreset⟩,
    fun s rest h => ⟨_, step_powerUp h, rfl⟩, fun s rest h => ⟨_, step_assertReset h, rfl⟩,
    fun s t => step_resets, fun s t a hr he hst => ?_⟩
  obtain ⟨rest, h⟩ := List.head?_eq_some_iff.mp he
  exact absurd (step_access_released h hst) (by simp [hr])

/-! ### What sets a STATUS bit after reset (R204, R208) -/

/-- A step that sets a bit (given by its projection `p`) which hosts cannot write and which reset clears executes a command
that sets it. -/
theorem step_sets {p : Regs → Bool} {s t : State} (hst : step s = .next t) (h0 : p s.regs = false) (h1 : p t.regs = true)
    (hreset : p Regs.reset = false) (hp : ∀ (r : Regs) chken poly init crc illcmd,
      p { r with chken := chken, poly := poly, init := init, crc := crc, illcmd := illcmd } = p r) :
    ∃ i, s.nextCommand = some i ∧ p (effect i s.regs) = true := by
  rcases step_changes hst (by simp [h0, h1]) hp with hr | ⟨i, hn, -, ht, -⟩
  · simp [step_resets hr hst, hreset] at h1
  · exact ⟨i, hn, ht ▸ h1⟩

section Sets

variable {i : Instr} {r : Regs}

/-- A command that sets TVALID is a VALT that passes (R124). -/
theorem effect_sets_tvalid (h0 : r.tvalid = false) (h1 : (effect i r).tvalid = true) :
    ∃ d0 d1 c, i = .valt d0 d1 c ∧ (r.chken = false ∨ crc8 r.init r.poly [d0, d1] = c) := by
  cases i with
  | valt d0 d1 c => exact ⟨d0, d1, c, rfl, fieldPasses_iff.mp ((validateField_temperature_tvalid r d0 d1 c).symm.trans h1)⟩
  | sreset => cases h1
  | _ => simp [effect, h0] at h1

/-- A command that sets HVALID is a VALH that passes (R125). -/
theorem effect_sets_hvalid (h0 : r.hvalid = false) (h1 : (effect i r).hvalid = true) :
    ∃ d0 d1 c, i = .valh d0 d1 c ∧ (r.chken = false ∨ crc8 r.init r.poly [d0, d1] = c) := by
  cases i with
  | valh d0 d1 c => exact ⟨d0, d1, c, rfl, fieldPasses_iff.mp ((validateField_humidity_hvalid r d0 d1 c).symm.trans h1)⟩
  | sreset => cases h1
  | _ => simp [effect, h0] at h1

/-- A command that sets RTVALID is a temperature conversion (R150, R155). -/
theorem effect_sets_rtvalid (h0 : r.rtvalid = false) (h1 : (effect i r).rtvalid = true) :
    i = .convat ∨ i = .convbt ∨ ∃ raw, i = .convrat raw ∨ i = .convrbt raw := by
  cases i with
  | convat | convbt | convrat | convrbt => simp
  | sreset => cases h1
  | _ => simp [effect, h0] at h1

/-- A command that sets RHVALID is a humidity conversion (R150, R155). -/
theorem effect_sets_rhvalid (h0 : r.rhvalid = false) (h1 : (effect i r).rhvalid = true) :
    i = .convah ∨ i = .convbh ∨ ∃ raw, i = .convrah raw ∨ i = .convrbh raw := by
  cases i with
  | convah | convbh | convrah | convrbh => simp
  | sreset => cases h1
  | _ => simp [effect, h0] at h1

end Sets

/-- Settles O57: `step_sets` finds the command, which is a validation that passes, and the refusals are those of each gated
conversion. -/
theorem gatedConversionsAreRefusedUntilAFieldPasses : Obligations.GatedConversionsAreRefusedUntilAFieldPasses := by
  refine ⟨⟨rfl, rfl⟩, fun s t hst h0 h1 => ?_, fun s t hst h0 h1 => ?_, fun i s hv hi => ?_, fun i s hv hi => ?_⟩
  · obtain ⟨i, hn, hset⟩ := step_sets hst h0 h1 rfl fun _ _ _ _ _ _ => rfl
    obtain ⟨d0, d1, c, rfl, hpass⟩ := effect_sets_tvalid h0 hset
    exact ⟨d0, d1, c, hn, hpass⟩
  · obtain ⟨i, hn, hset⟩ := step_sets hst h0 h1 rfl fun _ _ _ _ _ _ => rfl
    obtain ⟨d0, d1, c, rfl, hpass⟩ := effect_sets_hvalid h0 hset
    exact ⟨d0, d1, c, hn, hpass⟩
  · rcases hi with rfl | rfl
    · exact (convatConvertsOrRefuses.1 s).2 hv
    · exact (convbtConvertsOrRefuses.1 s).2 hv
  · rcases hi with rfl | rfl
    · exact (convahConvertsOrRefuses.1 s).2 hv
    · exact (convbhConvertsOrRefuses.1 s).2 hv

/-- Settles O58: a validation clears the bit, and `step_sets` finds the command that sets it, a conversion. -/
theorem resultsStayStaleUntilAConversion : Obligations.ResultsStayStaleUntilAConversion := by
  refine ⟨fun d0 d1 c s t h => ?_, fun d0 d1 c s t h => ?_, fun s t hst h0 h1 => ?_, fun s t hst h0 h1 => ?_⟩
  · rw [exec_next h]
    exact validateField_temperature_rtvalid s.regs d0 d1 c
  · rw [exec_next h]
    exact validateField_humidity_rhvalid s.regs d0 d1 c
  · obtain ⟨i, hn, hset⟩ := step_sets hst h0 h1 rfl fun _ _ _ _ _ _ => rfl
    simpa [hn] using effect_sets_rtvalid h0 hset
  · obtain ⟨i, hn, hset⟩ := step_sets hst h0 h1 rfl fun _ _ _ _ _ _ => rfl
    simpa [hn] using effect_sets_rhvalid h0 hset

/-! ### Configuration writes (R207) -/

/-- A host's write of a configuration register leaves everything but the configuration. -/
theorem writeReg_configuration {g : Reg} (hg : g = .poly ∨ g = .init ∨ g = .ctrl) (r : Regs) (v : Word) :
    ∃ chken poly init, r.writeReg (some g) v = { r with chken := chken, poly := poly, init := init } := by
  rcases hg with rfl | rfl | rfl <;> exact ⟨_, _, _, rfl⟩

/-- The step of a configuration write changes no register but the configuration. -/
theorem step_configurationWrite {s : State} {rest : List Event} {g : Reg} {v : Word}
    (hg : g = .poly ∨ g = .init ∨ g = .ctrl)
    (h : s.pending = .access (memWrite (Config.base + regOffset g) 4 v.toNat) :: rest) (hr : s.resetAsserted = false) :
    ∃ t, step s = .next t ∧ ∃ chken poly init, t.regs = { s.regs with chken := chken, poly := poly, init := init } := by
  have hoff : 0 < regOffset g ∧ regOffset g < 64 ∧ regOffset g % 4 = 0 := by rcases hg with rfl | rfl | rfl <;> decide
  obtain ⟨hpos, hlt, h4⟩ := hoff
  refine ⟨_, step_registerWrite h hr hpos hlt h4, ?_⟩
  rw [regAt_regOffset]
  exact writeReg_configuration hg s.regs v

/-- Settles O59, by `step_configurationWrite`: none of the registers it names is a configuration register. -/
theorem configurationWritesAreNotRetroactive : Obligations.ConfigurationWritesAreNotRetroactive := by
  intro s rest g v hg h hr
  obtain ⟨t, hst, _, _, _, ht⟩ := step_configurationWrite hg h hr
  refine ⟨t, hst, ?_⟩
  rw [ht]
  exact ⟨rfl, rfl, rfl, rfl, rfl⟩

end Sys2Proof.Machine
end
